-- ==== Sys2Proof/Word.lean ====
section
/-! DEFINITION. The bit widths of the FCAG: bytes, nibbles, pulse widths, frame words, request words
and response words. Bit 0 is the least significant bit of every field (00_scope.md R9). -/

namespace Sys2Proof

/-- An 8-bit field: command bytes, value bytes, channel and raw operands (20_memory.md R52). -/
abbrev Byte := BitVec 8

/-- A 4-bit field: the sequence number and the checksum (20_memory.md R53). -/
abbrev Nibble := BitVec 4

/-- A 16-bit unsigned pulse width in microseconds (10_state.md R26). -/
abbrev Pulse := BitVec 16

/-- A whole frame, byte 0 in bits 31..24 and byte 3 in bits 7..0 (20_memory.md R55). -/
abbrev FrameWord := BitVec 32

/-- A request, opcode in bits 39..32 and payload in bits 31..0 (30_encoding.md R71). -/
abbrev RequestWord := BitVec 40

/-- A response, status in bits 39..32 and data in bits 31..0 (30_encoding.md R74). -/
abbrev ResponseWord := BitVec 40

/-- A channel that exists: an index 0..5 (00_scope.md R6, 10_state.md R25). -/
abbrev Channel := Fin 6

end Sys2Proof
end

