-- ==== Sys2Proof/Config.lean ====
section
/-! DEFINITION. The configuration record of 00_scope.md R7 and the reference configuration.
Every number is held as a natural number, since the rules compute with it over the integers (R10); the
ranges the table of R7 gives are a check of WellFormed.lean. -/

namespace Sys2Proof

/-- The configuration `cfg` (00_scope.md R7). It is latched when reset is released and no request writes
it (10_state.md R30). -/
structure Config where
  /-- `CENTER_US`: the neutral pulse width. -/
  centerUs : Nat
  /-- `DEADBAND_US`: half-width of the deadband window. -/
  deadbandUs : Nat
  /-- `STEP_US`: the largest change of a channel's pulse width in one tick. -/
  stepUs : Nat
  /-- `ESC_MIN_US`: the lowest pulse the ESC accepts. -/
  escMinUs : Nat
  /-- `ESC_MAX_US`: the highest pulse the ESC accepts. -/
  escMaxUs : Nat
  /-- `RAW_CENTER`: centre of the raw input band. -/
  rawCenter : Nat
  /-- `RAW_HALF_BAND`: half-width of the governor clamp band. -/
  rawHalfBand : Nat
  /-- `SCALE_NUM`: numerator of the linear scale. -/
  scaleNum : Nat
  /-- `SCALE_DEN`: denominator of the linear scale. -/
  scaleDen : Nat
  /-- `DIR[0..5]`: `false` is the bit 0 and means +1, `true` is the bit 1 and means -1. -/
  dir : Vector Bool 6
  /-- `OPC_ESTABLISH`: the set of command bytes meaning ESTABLISH_CONNECTION, listed. The first one listed is
  the table's row ESTABLISH_CONNECTION, any other one its row ESTABLISH_CONNECTION_ALT (DESIGN CHOICE, safe:
  log entry 8). -/
  opcEstablish : List Byte
  /-- `OPC_SET_MOTOR`. -/
  opcSetMotor : Byte
  /-- `OPC_MOTOR_ACK`. -/
  opcMotorAck : Byte
  /-- `OPC_SET_CAMERA`. -/
  opcSetCamera : Byte
  /-- `OPC_READ_SENSOR`. -/
  opcReadSensor : Byte
  /-- `OPC_BLINK`. -/
  opcBlink : Byte
  /-- `OPC_INVALID_ACK`. -/
  opcInvalidAck : Byte
  /-- `MAGIC1`: the handshake byte expected in value1 (OPEN in the spec). -/
  magic1 : Byte
  /-- `MAGIC2`: the handshake byte expected in value2 (OPEN in the spec). -/
  magic2 : Byte
  deriving DecidableEq, Repr

/-- The reference configuration: the column "reference" of 00_scope.md R7, with the test instance of the
two OPEN magic bytes (DESIGN CHOICE, unsafe for a claim about this one configuration: log entry 2). -/
def Config.reference : Config where
  centerUs := 1500
  deadbandUs := 25
  stepUs := 20
  escMinUs := 1100
  escMaxUs := 1900
  rawCenter := 128
  rawHalfBand := 100
  scaleNum := 4
  scaleDen := 1
  dir := #v[false, false, false, false, false, false]
  opcEstablish := [0x00, 0x10]
  opcSetMotor := 0x20
  opcMotorAck := 0x21
  opcSetCamera := 0x33
  opcReadSensor := 0x40
  opcBlink := 0x80
  opcInvalidAck := 0xFF
  magic1 := 0x55
  magic2 := 0xAA

/-- `SPAN = trunc(RAW_HALF_BAND * SCALE_NUM / SCALE_DEN)`: the farthest a target can lie from the centre
(00_scope.md R8). Both factors are unsigned, so rounding toward zero is the quotient of naturals. -/
def Config.span (c : Config) : Nat := c.rawHalfBand * c.scaleNum / c.scaleDen

/-- The six command bytes that R8 (W6) asks to be pairwise distinct and outside `OPC_ESTABLISH`. -/
def Config.otherCodes (c : Config) : List Byte :=
  [c.opcSetMotor, c.opcMotorAck, c.opcSetCamera, c.opcReadSensor, c.opcBlink, c.opcInvalidAck]

end Sys2Proof
end

