-- ==== Sys2Proof/Syntax.lean ====
section
/-! DEFINITION. The instructions of the FCAG: one constructor for each row of spec/opcode_table.json, ten
operation requests (30_encoding.md R72) and nine wire-frame commands (30_encoding.md R81), as 00_scope.md R2
counts them. Reserved-zero bits are no operands; a wire command's own byte is an operand only where the
configuration gives the row more than one. -/

namespace Sys2Proof

/-- One instruction. The operands of a wire command are the fields of its frame after the command byte:
value1, value2, the sequence nibble and the received checksum nibble (30_encoding.md R80). -/
inductive Instr where
  /-- ENCODE cmd, v1, v2, seq (40_codec.md R104). -/
  | encode (cmd v1 v2 : Byte) (seq : Nibble)
  /-- DECODE of a frame's five fields (40_codec.md R105). -/
  | decode (command value1 value2 : Byte) (sequence checksum : Nibble)
  /-- SEQ_CURRENT (41_sequence.md R121). -/
  | seqCurrent
  /-- SEQ_NEXT (41_sequence.md R122). -/
  | seqNext
  /-- RX_BYTE b (42_dispatch.md R131). -/
  | rxByte (b : Byte)
  /-- PROCESS_FRAME of a frame's five fields (42_dispatch.md R132). -/
  | processFrame (command value1 value2 : Byte) (sequence checksum : Nibble)
  /-- SET_TARGET ch, raw (43_governor.md R176). -/
  | setTarget (ch raw : Byte)
  /-- TICK ch (43_governor.md R178). -/
  | tick (ch : Byte)
  /-- TICK_ALL (43_governor.md R180). -/
  | tickAll
  /-- READ_CHANNEL ch (43_governor.md R182). -/
  | readChannel (ch : Byte)
  /-- The wire command ESTABLISH_CONNECTION, `command` the first byte of `OPC_ESTABLISH` (42_dispatch.md R140). -/
  | establishConnection (command value1 value2 : Byte) (sequence checksum : Nibble)
  /-- The wire command ESTABLISH_CONNECTION by another byte of `OPC_ESTABLISH` (42_dispatch.md R140, 90_conflicts.md C9). -/
  | establishConnectionAlt (command value1 value2 : Byte) (sequence checksum : Nibble)
  /-- The wire command SET_MOTOR: value1 the channel, value2 the raw target (42_dispatch.md R142). -/
  | setMotor (value1 value2 : Byte) (sequence checksum : Nibble)
  /-- The wire command SET_CAMERA: value1 the camera index (42_dispatch.md R145). -/
  | setCamera (value1 value2 : Byte) (sequence checksum : Nibble)
  /-- The wire command READ_SENSOR: value1 the sensor id (42_dispatch.md R147). -/
  | readSensor (value1 value2 : Byte) (sequence checksum : Nibble)
  /-- The wire command BLINK: value2 the duration (42_dispatch.md R146). -/
  | blink (value1 value2 : Byte) (sequence checksum : Nibble)
  /-- A received frame with the outbound code MOTOR_ACK (42_dispatch.md R134, R148, R149). -/
  | motorAck (value1 value2 : Byte) (sequence checksum : Nibble)
  /-- A received frame with the outbound code INVALID_ACK (42_dispatch.md R134, R148, R150). -/
  | invalidAck (value1 value2 : Byte) (sequence checksum : Nibble)
  /-- A received frame whose command byte is none of the above (42_dispatch.md R148). -/
  | unrecognized (command value1 value2 : Byte) (sequence checksum : Nibble)
  deriving DecidableEq, Repr

end Sys2Proof
end

