-- ==== Sys2Proof/WellFormed.lean ====
section
/-! DEFINITION. Well-formedness: the named checks W1 to W6 on a configuration (00_scope.md R8), the ranges of its
fields (R7), and the check on an instruction that its command byte belongs to its row under a configuration. -/

namespace Sys2Proof

/-- W1 band-fits-byte (00_scope.md R8): `RAW_CENTER - RAW_HALF_BAND >= 0` and `RAW_CENTER + RAW_HALF_BAND <= 255`. -/
abbrev Config.bandFitsByte (c : Config) : Prop :=
  c.rawHalfBand ≤ c.rawCenter ∧ c.rawCenter + c.rawHalfBand ≤ 255

/-- W2 targets-in-ESC-range (00_scope.md R8), over the integers. -/
abbrev Config.targetsInEscRange (c : Config) : Prop :=
  (c.escMinUs : Int) ≤ (c.centerUs : Int) - c.span ∧ (c.centerUs : Int) + c.span ≤ c.escMaxUs

/-- W3 step-positive (00_scope.md R8). -/
abbrev Config.stepPositive (c : Config) : Prop := 1 ≤ c.stepUs

/-- W4 denominator (00_scope.md R8). -/
abbrev Config.denominatorPositive (c : Config) : Prop := 1 ≤ c.scaleDen

/-- W5 fits-register (00_scope.md R8). -/
abbrev Config.fitsRegister (c : Config) : Prop := c.escMaxUs ≤ 65535

/-- W6 opcodes-distinct (00_scope.md R8). -/
abbrev Config.opcodesDistinct (c : Config) : Prop :=
  c.otherCodes.Nodup ∧ ∀ b ∈ c.otherCodes, b ∉ c.opcEstablish

/-- The unsigned ranges of 00_scope.md R7's table for the fields that no other check bounds. -/
abbrev Config.fieldsInRange (c : Config) : Prop :=
  c.centerUs ≤ 65535 ∧ c.deadbandUs ≤ 65535 ∧ c.stepUs ≤ 65535 ∧ c.escMinUs ≤ 65535 ∧
    c.rawCenter ≤ 255 ∧ c.rawHalfBand ≤ 255 ∧ c.scaleNum ≤ 65535 ∧ c.scaleDen ≤ 65535

/-- A configuration the model gives a meaning to (00_scope.md R8, 70_reset_and_hazards.md R233). -/
abbrev Config.wf (c : Config) : Prop :=
  c.bandFitsByte ∧ c.targetsInEscRange ∧ c.stepPositive ∧ c.denominatorPositive ∧ c.fitsRegister ∧
    c.opcodesDistinct ∧ c.fieldsInRange

/-- The instruction's command byte is one its row of the table may have under the configuration. A request is
well formed by its types; so is a wire command whose byte the configuration fixes. -/
def Instr.wf (cfg : Config) : Instr → Bool
  | .encode .. | .decode .. | .seqCurrent | .seqNext | .rxByte .. | .processFrame .. | .setTarget .. | .tick ..
  | .tickAll | .readChannel .. => true
  | .establishConnection c _ _ _ _ => cfg.opcEstablish.head? == some c
  | .establishConnectionAlt c _ _ _ _ => cfg.opcEstablish.contains c && cfg.opcEstablish.head? != some c
  | .setMotor .. | .setCamera .. | .readSensor .. | .blink .. | .motorAck .. | .invalidAck .. => true
  | .unrecognized c _ _ _ _ => !cfg.opcEstablish.contains c && !cfg.otherCodes.contains c

end Sys2Proof
end

