-- ==== Sys2Proof/Decode.lean ====
section
/-! DEFINITION. Decoding and encoding: request words by 30_encoding.md R71, R72, R76 and R77, frame words by
R80 and R81. The request decoder is total on all 2^40 words and rejects by name; every one of the 2^32 frame
words is an instruction (R83). The encoder follows the decoder, written from the same tables. -/

namespace Sys2Proof

/-- Why a request word is no instruction (30_encoding.md R77). -/
inductive DecodeError where
  /-- The opcode is unassigned. -/
  | unassignedOpcode
  /-- A bit under the opcode's reserved-zero mask is 1. -/
  | reservedBits
  deriving DecidableEq, Repr

/-- `OPC = REQ[39:32]` (30_encoding.md R71). -/
def opcodeOf (req : RequestWord) : Byte := req.extractLsb' 32 8

/-- `P = REQ[31:0]` (30_encoding.md R71). -/
def payloadOf (req : RequestWord) : BitVec 32 := req.extractLsb' 0 32

/-- The ten assigned request opcodes (30_encoding.md R72). -/
inductive RequestOp where
  | encode | decode | seqCurrent | seqNext | rxByte | processFrame | setTarget | tick | tickAll | readChannel
  deriving DecidableEq, Repr

/-- The opcode map of 30_encoding.md R72. -/
def requestOp (opc : Byte) : Option RequestOp :=
  match opc.toNat with
  | 0x01 => some .encode
  | 0x02 => some .decode
  | 0x03 => some .seqCurrent
  | 0x04 => some .seqNext
  | 0x05 => some .rxByte
  | 0x06 => some .processFrame
  | 0x07 => some .setTarget
  | 0x08 => some .tick
  | 0x09 => some .tickAll
  | 0x0A => some .readChannel
  | _ => none

/-- `rz_mask`: the reserved-zero mask of the payload (30_encoding.md R72). -/
def reservedZeroMask : RequestOp → BitVec 32
  | .encode => 0x0000000F
  | .decode => 0x00000000
  | .seqCurrent => 0xFFFFFFFF
  | .seqNext => 0xFFFFFFFF
  | .rxByte => 0xFFFFFF00
  | .processFrame => 0x00000000
  | .setTarget => 0xFFFF0000
  | .tick => 0xFFFF00FF
  | .tickAll => 0xFFFFFFFF
  | .readChannel => 0xFFFF00FF

/-- Byte `k` of a 32-bit payload or frame word is bits `31-8k .. 24-8k` (20_memory.md R55); this is its byte 0. -/
def byte0 (p : BitVec 32) : Byte := p.extractLsb' 24 8

/-- Byte 1 of a payload or frame word (20_memory.md R55). -/
def byte1 (p : BitVec 32) : Byte := p.extractLsb' 16 8

/-- Byte 2 of a payload or frame word (20_memory.md R55). -/
def byte2 (p : BitVec 32) : Byte := p.extractLsb' 8 8

/-- Byte 3 of a payload or frame word (20_memory.md R55). -/
def byte3 (p : BitVec 32) : Byte := p.extractLsb' 0 8

/-- The high nibble of byte 3, the sequence number (20_memory.md R53). -/
def seqNibble (p : BitVec 32) : Nibble := p.extractLsb' 4 4

/-- The low nibble of byte 3, the checksum (20_memory.md R53). -/
def checkNibble (p : BitVec 32) : Nibble := p.extractLsb' 0 4

/-- The frame word of five fields (20_memory.md R55, 30_encoding.md R80). -/
def frameWord (command value1 value2 : Byte) (sequence checksum : Nibble) : FrameWord :=
  command ++ value1 ++ value2 ++ sequence ++ checksum

/-- The 32-bit payload or frame word of four bytes (20_memory.md R55). -/
def bytesWord (b0 b1 b2 b3 : Byte) : BitVec 32 := b0 ++ b1 ++ b2 ++ b3

/-- The request word of an opcode and a payload (30_encoding.md R71). -/
def requestWord (opc : Byte) (p : BitVec 32) : RequestWord := opc ++ p

/-- The operands of each opcode, taken from the payload by its layout (30_encoding.md R71, R73). -/
def requestInstr (op : RequestOp) (p : BitVec 32) : Instr :=
  match op with
  | .encode => .encode (byte0 p) (byte1 p) (byte2 p) (seqNibble p)
  | .decode => .decode (byte0 p) (byte1 p) (byte2 p) (seqNibble p) (checkNibble p)
  | .seqCurrent => .seqCurrent
  | .seqNext => .seqNext
  | .rxByte => .rxByte (byte3 p)
  | .processFrame => .processFrame (byte0 p) (byte1 p) (byte2 p) (seqNibble p) (checkNibble p)
  | .setTarget => .setTarget (byte2 p) (byte3 p)
  | .tick => .tick (byte2 p)
  | .tickAll => .tickAll
  | .readChannel => .readChannel (byte2 p)

/-- The procedure `decode_request` (30_encoding.md R76): the opcode first, then the reserved bits
(60_exceptions.md R208). -/
def decodeRequest (req : RequestWord) : Except DecodeError Instr :=
  match requestOp (opcodeOf req) with
  | none => .error .unassignedOpcode
  | some op =>
    if payloadOf req &&& reservedZeroMask op ≠ 0 then .error .reservedBits
    else .ok (requestInstr op (payloadOf req))

/-- The wire command of a frame's five fields, by the command byte alone (30_encoding.md R81, 42_dispatch.md R134).
A frame with a wrong checksum has a command too: the codec rejects it when it is processed (R83). -/
def decodeFields (cfg : Config) (c v1 v2 : Byte) (sq ck : Nibble) : Instr :=
  if cfg.opcEstablish.head? = some c then .establishConnection c v1 v2 sq ck
  else if c ∈ cfg.opcEstablish then .establishConnectionAlt c v1 v2 sq ck
  else if c = cfg.opcSetMotor then .setMotor v1 v2 sq ck
  else if c = cfg.opcSetCamera then .setCamera v1 v2 sq ck
  else if c = cfg.opcReadSensor then .readSensor v1 v2 sq ck
  else if c = cfg.opcBlink then .blink v1 v2 sq ck
  else if c = cfg.opcMotorAck then .motorAck v1 v2 sq ck
  else if c = cfg.opcInvalidAck then .invalidAck v1 v2 sq ck
  else .unrecognized c v1 v2 sq ck

/-- The wire command that a frame word carries (20_memory.md R55). -/
def decodeFrame (cfg : Config) (f : FrameWord) : Instr :=
  decodeFields cfg (byte0 f) (byte1 f) (byte2 f) (seqNibble f) (checkNibble f)

/-- The PROCESS_FRAME request that carries a whole frame (30_encoding.md R79). -/
def processFrameRequest (f : FrameWord) : RequestWord := requestWord 0x06 f

/-- The request that presents an instruction given by its table bits: a row of 40 bits is a request word itself;
a row of 32 bits is a frame, which the request port takes by PROCESS_FRAME (log entry 6). -/
def requestOfTableBits (nbits w : Nat) : RequestWord :=
  if nbits ≤ 32 then processFrameRequest (BitVec.ofNat 32 w) else BitVec.ofNat 40 w

/-- What this file's decoder reads from an instruction's table bits: a row of 40 bits is a request word, a row of
32 bits a frame word, read with the reference configuration's command bytes (30_encoding.md R81). -/
def decodeTableWord (nbits w : Nat) : Option Instr :=
  if nbits ≤ 32 then some (decodeFrame Config.reference (BitVec.ofNat 32 w))
  else (decodeRequest (BitVec.ofNat 40 w)).toOption

/-- An encoded instruction: a request word or a frame word (30_encoding.md R71, R80). -/
inductive Encoded where
  | request (w : RequestWord)
  | frame (w : FrameWord)
  deriving DecidableEq, Repr

/-- The word of each instruction (30_encoding.md R79 for the requests, R80 and R81 for the wire commands). -/
def encode (cfg : Config) : Instr → Encoded
  | .encode cmd v1 v2 seq => .request (requestWord 0x01 (frameWord cmd v1 v2 seq 0))
  | .decode c v1 v2 sq ck => .request (requestWord 0x02 (frameWord c v1 v2 sq ck))
  | .seqCurrent => .request (requestWord 0x03 0)
  | .seqNext => .request (requestWord 0x04 0)
  | .rxByte b => .request (requestWord 0x05 (bytesWord 0 0 0 b))
  | .processFrame c v1 v2 sq ck => .request (processFrameRequest (frameWord c v1 v2 sq ck))
  | .setTarget ch raw => .request (requestWord 0x07 (bytesWord 0 0 ch raw))
  | .tick ch => .request (requestWord 0x08 (bytesWord 0 0 ch 0))
  | .tickAll => .request (requestWord 0x09 0)
  | .readChannel ch => .request (requestWord 0x0A (bytesWord 0 0 ch 0))
  | .establishConnection c v1 v2 sq ck => .frame (frameWord c v1 v2 sq ck)
  | .establishConnectionAlt c v1 v2 sq ck => .frame (frameWord c v1 v2 sq ck)
  | .setMotor v1 v2 sq ck => .frame (frameWord cfg.opcSetMotor v1 v2 sq ck)
  | .setCamera v1 v2 sq ck => .frame (frameWord cfg.opcSetCamera v1 v2 sq ck)
  | .readSensor v1 v2 sq ck => .frame (frameWord cfg.opcReadSensor v1 v2 sq ck)
  | .blink v1 v2 sq ck => .frame (frameWord cfg.opcBlink v1 v2 sq ck)
  | .motorAck v1 v2 sq ck => .frame (frameWord cfg.opcMotorAck v1 v2 sq ck)
  | .invalidAck v1 v2 sq ck => .frame (frameWord cfg.opcInvalidAck v1 v2 sq ck)
  | .unrecognized c v1 v2 sq ck => .frame (frameWord c v1 v2 sq ck)

/-- Decoding either kind of word. -/
def decode (cfg : Config) : Encoded → Except DecodeError Instr
  | .request w => decodeRequest w
  | .frame w => .ok (decodeFrame cfg w)

end Sys2Proof
end

