-- ==== Sys2Proof/Machine/State.lean ====
section
/-! DEFINITION. The state of the FCAG: the elements of 10_state.md R23, the latched configuration, the level of the
reset input, and the two records of the model's own (the host's pending events and the output history). Plain data. -/

namespace Sys2Proof.Machine

/-- The level of the `RESET` input and whether a reset has ever been released (60_exceptions.md R218,
70_reset_and_hazards.md R230, 10_state.md R36). -/
inductive Phase where
  /-- Before the first reset: the state is unspecified and no request is served. -/
  | beforeReset
  /-- `RESET` is asserted: no request is accepted. -/
  | inReset
  /-- Reset is released: requests are served. -/
  | serving
  deriving DecidableEq, Repr

/-- What the host does at the inputs of the FCAG (10_state.md R32, 70_reset_and_hazards.md R243). -/
inductive HostEvent where
  /-- A 40-bit word presented on the request port. -/
  | request (req : RequestWord)
  /-- The `RESET` input is asserted. -/
  | resetAssert
  /-- The `RESET` input is released while the host presents a configuration. -/
  | resetRelease (cfg : Config)
  deriving DecidableEq, Repr

/-- The statuses of a response (30_encoding.md R74); no other is ever produced. -/
inductive Status where
  | ok
  | okTx
  | errChecksum
  | errChannel
  | errOpcode
  | errReserved
  deriving DecidableEq, Repr

/-- What one accepted request gives at the output ports: its response and the events it emits, all together at its
end (20_memory.md R58, 10_state.md R32). -/
structure Completion where
  /-- The status of the response (30_encoding.md R74). -/
  status : Status
  /-- The data of the response (30_encoding.md R74). -/
  data : BitVec 32
  /-- The frames emitted on `TX`. -/
  tx : List FrameWord
  /-- The durations emitted on `BLINK`. -/
  blink : List Byte
  deriving DecidableEq, Repr

/-- The state. -/
structure State where
  /-- `SEQ`, the sequence counter (10_state.md R24). -/
  seq : BitVec 4
  /-- `CUR[0..5]`, the present pulse widths (10_state.md R26). -/
  cur : Vector (BitVec 16) 6
  /-- `TGT[0..5]`, the commanded pulse widths (10_state.md R27). -/
  tgt : Vector (BitVec 16) 6
  /-- `RX_COUNT`, the bytes of the inbound frame held (10_state.md R29). -/
  rxCount : BitVec 2
  /-- `RX_BUF`, byte k held at bits 23-8k .. 16-8k (10_state.md R29). -/
  rxBuf : BitVec 24
  /-- `CAM_SEL`, the camera select output (10_state.md R33). -/
  camSel : BitVec 3
  /-- `cfg`, latched at reset and read-only (10_state.md R30). DESIGN CHOICE, safe: log entry 1. -/
  cfg : Config
  /-- The level of `RESET`. DESIGN CHOICE: log entry 9. -/
  phase : Phase
  /-- The model's own: what the host does next, the head first. DESIGN CHOICE, safe: log entry 3. -/
  port : List HostEvent
  /-- The model's own: what the output ports gave, newest first; no rule reads it (10_state.md R31). Log entry 4. -/
  history : List Completion
  deriving DecidableEq, Repr

/-- Why the machine stops. The FCAG itself has no trap, halt or stuck state (60_exceptions.md R200). -/
inductive Fault where
  /-- Raised by `fetch` in a state that no reset has reached: the state is unspecified and a model must not step
  (10_state.md R36, 93_implementation_defined.md I23 `stuck`). Safe: the model stops where the spec gives no state. -/
  | beforeFirstReset
  deriving DecidableEq, Repr

/-- Why the model gives no meaning. -/
inductive Refusal where
  /-- Raised by an arm of `exec` whose instruction has no meaning yet; no arm does. Safe. -/
  | notModelled (mnemonic : String)
  /-- Raised by `fetch` when the configuration fails a check of 00_scope.md R8: at a reset release that presents it, or at
  a request in a state that holds it (70_reset_and_hazards.md R233, 93_implementation_defined.md I22 `refuse`). Safe. -/
  | illFormedConfiguration
  /-- Raised by `fetch` when a configuration is presented while `RESET` is not asserted
  (93_implementation_defined.md I24 `refuse`: "the model gives it no move"). Safe. -/
  | configurationWithoutReset
  deriving DecidableEq, Repr

/-- The state right after reset is released with the configuration `cfg` (10_state.md R23, 70_reset_and_hazards.md
R230), with nothing yet presented and nothing yet emitted. -/
def State.resetWith (cfg : Config) : State where
  seq := 0
  cur := Vector.replicate 6 (BitVec.ofNat 16 cfg.centerUs)
  tgt := Vector.replicate 6 (BitVec.ofNat 16 cfg.centerUs)
  rxCount := 0
  rxBuf := 0
  camSel := 0
  cfg := cfg
  phase := .serving
  port := []
  history := []

/-- The machine right after reset, under the reference configuration (DESIGN CHOICE: log entry 2). -/
def State.reset : State := State.resetWith Config.reference

end Sys2Proof.Machine
end

