-- ==== Sys2Proof/Machine/Flags.lean ====
section
/-! DEFINITION. The FCAG holds no flags (10_state.md R22). What a request reports of its outcome is computed here: the
checksum nibble, the status code, the response word, and TICK_ALL's mask of channels still moving; with them the
sequence advance. -/

namespace Sys2Proof.Machine

/-- `calc_checksum` (40_codec.md R100): the weighted sum over the integers, reduced mod 16. -/
def calcChecksum (c v1 v2 : Byte) (s : Nibble) : Nibble :=
  BitVec.ofNat 4 ((c.toNat + 3 * v1.toNat + 5 * v2.toNat + 7 * s.toNat) % 16)

/-- `seq_succ` (41_sequence.md R120): past 15 it wraps to 0. -/
def seqSucc (s : Nibble) : Nibble := BitVec.ofNat 4 ((s.toNat + 1) % 16)

/-- The status codes (30_encoding.md R74). -/
def statusCode : Status → Byte
  | .ok => 0x00
  | .okTx => 0x01
  | .errChecksum => 0x10
  | .errChannel => 0x11
  | .errOpcode => 0x12
  | .errReserved => 0x13

/-- The response word `RSP` (30_encoding.md R74). -/
def responseWord (c : Completion) : ResponseWord := statusCode c.status ++ c.data

/-- The data of ERR_CHECKSUM: received nibble in bits 7..4, expected nibble in bits 3..0 (30_encoding.md R74). -/
def checksumErrorData (received expected : Nibble) : BitVec 32 := (0 : BitVec 24) ++ received ++ expected

/-- A 32-bit word with bit `ch` set where `f ch` holds, other bits 0 (43_governor.md R180). -/
def channelMask (f : Channel → Bool) : BitVec 32 :=
  (0 : BitVec 26) ++ BitVec.ofBool (f 5) ++ BitVec.ofBool (f 4) ++ BitVec.ofBool (f 3) ++ BitVec.ofBool (f 2) ++
    BitVec.ofBool (f 1) ++ BitVec.ofBool (f 0)

end Sys2Proof.Machine
end

