-- ==== Sys2Proof/Machine/Operands.lean ====
section
/-! DEFINITION. What the operands of a request mean: the channel operand and the raw operand with the governor's functions
(43_governor.md part 1), and the slew step. Every number is computed over the integers and then stored in its field
(00_scope.md R10); under a well-formed configuration and in the ranges of 43_governor.md R185 nothing is cut (log entry 11). -/

namespace Sys2Proof.Machine

/-- `valid_ch` (00_scope.md R12): the whole 8-bit index is 0..5. -/
abbrev validCh (ch : Byte) : Prop := ch.toNat ≤ 5

/-- The channel that a channel operand names, if it names one (10_state.md R25). -/
def channelOf (ch : Byte) : Option Channel :=
  if h : validCh ch then some ⟨ch.toNat, Nat.lt_succ_of_le h⟩ else none

/-- A table of six values, one for each channel. -/
def perChannel {α : Type} (f : Channel → α) : Vector α 6 := #v[f 0, f 1, f 2, f 3, f 4, f 5]

/-- `clamp` (00_scope.md R10). -/
def clampInt (x lo hi : Int) : Int := if x < lo then lo else if x > hi then hi else x

/-- `gov_clamp` (43_governor.md R171). -/
def govClamp (cfg : Config) (raw : Byte) : Byte :=
  BitVec.ofInt 8 (clampInt raw.toNat ((cfg.rawCenter : Int) - cfg.rawHalfBand) ((cfg.rawCenter : Int) + cfg.rawHalfBand))

/-- `gov_scale` (43_governor.md R172), with `trunc` of 00_scope.md R10. -/
def govScale (cfg : Config) (c : Byte) : Int :=
  cfg.centerUs + (((c.toNat : Int) - cfg.rawCenter) * cfg.scaleNum).tdiv cfg.scaleDen

/-- `gov_deadband` (43_governor.md R173): the window's edge is inside. -/
def govDeadband (cfg : Config) (x : Int) : Int :=
  if (x - cfg.centerUs).natAbs ≤ cfg.deadbandUs then cfg.centerUs else x

/-- `gov` (43_governor.md R174), over the integers. -/
def gov (cfg : Config) (raw : Byte) : Int := govDeadband cfg (govScale cfg (govClamp cfg raw))

/-- `gov` stored in the 16 bits of `TGT[ch]`. -/
def govTarget (cfg : Config) (raw : Byte) : Pulse := BitVec.ofInt 16 (gov cfg raw)

/-- `tick_step` over the integers (43_governor.md R177). -/
def tickStepInt (step cur tgt : Int) : Int :=
  if ((tgt - cur).natAbs : Int) ≤ step then tgt else cur + (tgt - cur).sign * step

/-- `tick_step` on the registers (43_governor.md R177). -/
def tickStep (cfg : Config) (cur tgt : Pulse) : Pulse :=
  BitVec.ofInt 16 (tickStepInt cfg.stepUs cur.toNat tgt.toNat)

/-- `dsign(ch)` (10_state.md R28). -/
def dsign (cfg : Config) (ch : Channel) : Int := if cfg.dir[ch] then -1 else 1

/-- The output map: the offset from the centre with the channel's sign (10_state.md R34). -/
def escOutInt (cfg : Config) (ch : Channel) (cur : Int) : Int := cfg.centerUs + dsign cfg ch * (cur - cfg.centerUs)

end Sys2Proof.Machine
end

