-- ==== Sys2Proof/Machine/Ops.lean ====
section
/-! DEFINITION. The named operations over the registers and ports: register writes, ending a request with its response
(00_scope.md R11), ending it with an error status (the FCAG's only form of exception, 60_exceptions.md R200), the
outputs, reset (70_reset_and_hazards.md R230), and fetching what the host presents next. -/

namespace Sys2Proof.Machine

/-- `S.SEQ <- q`. -/
def setSeq (s : State) (q : Nibble) : State := { s with seq := q }

/-- `S.CUR[ch] <- x`. -/
def setCur (s : State) (ch : Channel) (x : Pulse) : State := { s with cur := s.cur.set ch.val x ch.isLt }

/-- `S.CUR[0..5] <- xs`. -/
def setAllCur (s : State) (xs : Vector (BitVec 16) 6) : State := { s with cur := xs }

/-- `S.TGT[ch] <- x`. -/
def setTgt (s : State) (ch : Channel) (x : Pulse) : State := { s with tgt := s.tgt.set ch.val x ch.isLt }

/-- `S.RX_COUNT <- n; S.RX_BUF <- b`. -/
def setRx (s : State) (n : BitVec 2) (b : BitVec 24) : State := { s with rxCount := n, rxBuf := b }

/-- `S.CAM_SEL <- x`. -/
def setCam (s : State) (x : BitVec 3) : State := { s with camSel := x }

/-- `RX_BUF[23-8n : 16-8n] <- b` on the buffer's value, for byte position n = 0, 1, 2 (10_state.md R29). -/
def putRxByte (buf : BitVec 24) (n : BitVec 2) (b : Byte) : BitVec 24 :=
  match n.toNat with
  | 0 => b ++ buf.extractLsb' 0 16
  | 1 => buf.extractLsb' 16 8 ++ b ++ buf.extractLsb' 0 8
  | 2 => buf.extractLsb' 8 16 ++ b
  | _ => buf

/-- Ends the request the FCAG is serving: its response and events appear together (20_memory.md R58) and it leaves the
request port, so that the host's next event follows (00_scope.md R11 `respond`; log entry 5). -/
def finish (s : State) (c : Completion) : State := { s with port := s.port.tail, history := c :: s.history }

/-- `respond(st, data)` with no event (00_scope.md R11). -/
def respond (s : State) (st : Status) (data : BitVec 32) : State :=
  finish s { status := st, data := data, tx := [], blink := [] }

/-- `raise <Status>(info)` (00_scope.md R11): no trap is entered, nothing is saved and no state is written
(60_exceptions.md R200, R201, R211). The error ends the request, and the next request is served normally, so there is
no return from it (R212). -/
def raise (s : State) (st : Status) (info : BitVec 32) : State := respond s st info

/-- The error of a request word that decodes to no instruction (30_encoding.md R76, R77). -/
def raiseDecode (s : State) (e : DecodeError) : State :=
  match e with
  | .unassignedOpcode => raise s .errOpcode 0
  | .reservedBits => raise s .errReserved 0

/-- The check `if not valid_ch(ch): raise ERR_CHANNEL(0)` before a channel request's effect (43_governor.md R176, R178, R182). -/
def onChannel (s : State) (ch : Byte) (effect : Channel → State) : State :=
  match channelOf ch with
  | none => raise s .errChannel 0
  | some k => effect k

/-- The output level `ESC_OUT[ch]`, a function of the state (10_state.md R34). -/
def escOut (s : State) (ch : Channel) : Pulse := BitVec.ofInt 16 (escOutInt s.cfg ch s.cur[ch].toNat)

/-- The output level `CAM_SEL` (10_state.md R33). -/
def camSelOut (s : State) : BitVec 3 := s.camSel

/-- The host's event at the head of the port is over, with no response and no output. -/
def dropEvent (s : State) : State := { s with port := s.port.tail }

/-- `RESET` is asserted (70_reset_and_hazards.md R230); the elements take their reset values only when it is released. -/
def assertReset (s : State) : State := dropEvent { s with phase := .inReset }

/-- `RESET` is released (70_reset_and_hazards.md R230): every element takes its reset value, `cfg` is latched, no event is
emitted. The host's further events and the record of past outputs are no state of the FCAG and stay. -/
def releaseReset (s : State) (cfg : Config) : State :=
  { State.resetWith cfg with port := s.port.tail, history := s.history }

/-- What the host's next event asks for: nothing more than a change of the reset level or idling, or a request accepted
for decoding. -/
inductive Fetched where
  | settled (outcome : Host.Outcome State Fault Refusal)
  | accepted (req : RequestWord)

/-- The FCAG takes the host's next event (10_state.md R32, 70_reset_and_hazards.md R230, R243). With no event it holds its
state (60_exceptions.md R218). While `RESET` is asserted a request is not accepted and has no effect (log entry 9).
An ill-formed configuration is refused (R233), and so is a configuration presented without a reset
(93_implementation_defined.md I24). -/
def fetch (s : State) : Fetched :=
  match s.phase, s.port with
  | .beforeReset, .resetAssert :: _ => .settled (.next (assertReset s))
  | .beforeReset, _ => .settled (.fault .beforeFirstReset)
  | .inReset, [] => .settled (.next s)
  | .inReset, .request _ :: _ => .settled (.next (dropEvent s))
  | .inReset, .resetAssert :: _ => .settled (.next (dropEvent s))
  | .inReset, .resetRelease cfg :: _ =>
    .settled (if cfg.wf then .next (releaseReset s cfg) else .refused .illFormedConfiguration)
  | .serving, [] => .settled (.next s)
  | .serving, .resetAssert :: _ => .settled (.next (assertReset s))
  | .serving, .resetRelease _ :: _ => .settled (.refused .configurationWithoutReset)
  | .serving, .request req :: _ =>
    if s.cfg.wf then .accepted req else .settled (.refused .illFormedConfiguration)

/-- The host presents a request, to be taken before everything it had lined up. -/
def presentRequest (s : State) (req : RequestWord) : State :=
  { s with phase := .serving, port := .request req :: s.port }

end Sys2Proof.Machine
end

