-- ==== Sys2Proof/Machine/Codec.lean ====
section
/-! DEFINITION. The frame codec's requests, ENCODE and DECODE (40_codec.md). -/

namespace Sys2Proof.Machine

/-- ENCODE (40_codec.md R104): the sequence is the operand, `SEQ` is not read. -/
def execEncode (cmd v1 v2 : Byte) (seq : Nibble) (s : State) : Host.Outcome State Fault Refusal :=
  .next (respond s .ok (frameWord cmd v1 v2 seq (calcChecksum cmd v1 v2 seq)))

/-- DECODE (40_codec.md R105): a mismatch is always rejected, a match gives the four fields with bits 3..0 zero. -/
def execDecode (c v1 v2 : Byte) (sq ck : Nibble) (s : State) : Host.Outcome State Fault Refusal :=
  if ck ≠ calcChecksum c v1 v2 sq then
    .next (raise s .errChecksum (checksumErrorData ck (calcChecksum c v1 v2 sq)))
  else .next (respond s .ok (frameWord c v1 v2 sq 0))

end Sys2Proof.Machine
end

