-- ==== Sys2Proof/Machine/Governor.lean ====
section
/-! DEFINITION. The actuator governor's requests: SET_TARGET, TICK, TICK_ALL and READ_CHANNEL (43_governor.md part 2). -/

namespace Sys2Proof.Machine

/-- SET_TARGET (43_governor.md R176): only `TGT[ch]` is written. -/
def execSetTarget (ch raw : Byte) (s : State) : Host.Outcome State Fault Refusal :=
  .next (onChannel s ch fun k =>
    respond (setTgt s k (govTarget s.cfg raw)) .ok (govTarget s.cfg raw ++ (0 : Byte) ++ govClamp s.cfg raw))

/-- TICK (43_governor.md R178): only `CUR[ch]` is written. -/
def execTick (ch : Byte) (s : State) : Host.Outcome State Fault Refusal :=
  .next (onChannel s ch fun k =>
    respond (setCur s k (tickStep s.cfg s.cur[k] s.tgt[k])) .ok ((tickStep s.cfg s.cur[k] s.tgt[k]).setWidth 32))

/-- The new `CUR[0..5]` of TICK_ALL (43_governor.md R180). -/
def tickAllCur (s : State) : Vector (BitVec 16) 6 := perChannel fun k => tickStep s.cfg s.cur[k] s.tgt[k]

/-- TICK_ALL (43_governor.md R180): all six channels in one atomic request; bit `ch` of the answer is 1 iff the new
`CUR[ch]` differs from `TGT[ch]`. -/
def execTickAll (s : State) : Host.Outcome State Fault Refusal :=
  .next (respond (setAllCur s (tickAllCur s)) .ok
    (channelMask fun k => decide (tickStep s.cfg s.cur[k] s.tgt[k] ≠ s.tgt[k])))

/-- READ_CHANNEL (43_governor.md R182): the target in bits 31..16, the present value before direction in bits 15..0. -/
def execReadChannel (ch : Byte) (s : State) : Host.Outcome State Fault Refusal :=
  .next (onChannel s ch fun k => respond s .ok (s.tgt[k] ++ s.cur[k]))

end Sys2Proof.Machine
end

