-- ==== Sys2Proof/Machine/Wire.lean ====
section
/-! DEFINITION. Processing one inbound frame (42_dispatch.md R133 to R136), the rule of each wire command (R140 to R148) with
its reply (R149, R150), and the meaning of each wire command as an instruction: the processing of one frame that carries it,
which PROCESS_FRAME and a fourth RX_BYTE share (R130; log entry 6). -/

namespace Sys2Proof.Machine

/-- A reply triple `(rc, r1, r2)` (42_dispatch.md R134). -/
structure Reply where
  code : Byte
  value1 : Byte
  value2 : Byte
  deriving DecidableEq, Repr

/-- What a command rule does: the state with its writes, its reply if any, its blink request if any. -/
structure CommandResult where
  state : State
  reply : Option Reply
  blink : List Byte
  deriving DecidableEq, Repr

/-- A command rule takes the received command byte and both value bytes (42_dispatch.md R136). -/
abbrev CommandRule := Byte → Byte → Byte → State → CommandResult

/-- The classes of command bytes (42_dispatch.md R134). -/
inductive CommandClass where
  | establish | setMotor | setCamera | readSensor | blink | unrecognized
  deriving DecidableEq, Repr

/-- `classify` (42_dispatch.md R134): the two outbound codes are unrecognized. -/
def classify (cfg : Config) (c : Byte) : CommandClass :=
  if c ∈ cfg.opcEstablish then .establish
  else if c = cfg.opcSetMotor then .setMotor
  else if c = cfg.opcSetCamera then .setCamera
  else if c = cfg.opcReadSensor then .readSensor
  else if c = cfg.opcBlink then .blink
  else .unrecognized

/-- The motor ack (42_dispatch.md R149): channel and clamped raw value. -/
def motorAckReply (cfg : Config) (ch raw : Byte) : Reply :=
  { code := cfg.opcMotorAck, value1 := ch, value2 := govClamp cfg raw }

/-- The error ack (42_dispatch.md R150): received value1, received command byte. -/
def errorAckReply (cfg : Config) (c v1 : Byte) : Reply :=
  { code := cfg.opcInvalidAck, value1 := v1, value2 := c }

/-- ESTABLISH_CONNECTION's rule (42_dispatch.md R140): a valid handshake is echoed, a wrong one is answered by nothing. -/
def establishRule : CommandRule := fun c v1 v2 s =>
  { state := s
    reply := if v1 = s.cfg.magic1 ∧ v2 = s.cfg.magic2 then some { code := c, value1 := v1, value2 := v2 } else none
    blink := [] }

/-- SET_MOTOR's rule (42_dispatch.md R142). -/
def setMotorRule : CommandRule := fun c ch raw s =>
  match channelOf ch with
  | some k =>
    { state := setTgt s k (govTarget s.cfg raw), reply := some (motorAckReply s.cfg ch raw), blink := [] }
  | none => { state := s, reply := some (errorAckReply s.cfg c ch), blink := [] }

/-- SET_CAMERA's rule (42_dispatch.md R145): an index of 8 or more is ignored. -/
def setCameraRule : CommandRule := fun _ v1 _ s =>
  { state := if v1.toNat ≤ 7 then setCam s (v1.extractLsb' 0 3) else s, reply := none, blink := [] }

/-- READ_SENSOR's rule (42_dispatch.md R147). -/
def readSensorRule : CommandRule := fun c v1 _ s =>
  { state := s, reply := some (errorAckReply s.cfg c v1), blink := [] }

/-- BLINK's rule (42_dispatch.md R146). -/
def blinkRule : CommandRule := fun _ _ v2 s => { state := s, reply := none, blink := [v2] }

/-- The rule of an unrecognized command (42_dispatch.md R148). -/
def unrecognizedRule : CommandRule := fun c v1 _ s =>
  { state := s, reply := some (errorAckReply s.cfg c v1), blink := [] }

/-- `command_rule` (42_dispatch.md R136). -/
def commandRule : CommandClass → CommandRule
  | .establish => establishRule
  | .setMotor => setMotorRule
  | .setCamera => setCameraRule
  | .readSensor => readSensorRule
  | .blink => blinkRule
  | .unrecognized => unrecognizedRule

/-- The reply frame (42_dispatch.md R135), stamped with the sequence `q` before the advance. -/
def replyFrame (r : Reply) (q : Nibble) : FrameWord :=
  frameWord r.code r.value1 r.value2 q (calcChecksum r.code r.value1 r.value2 q)

/-- What a valid frame gives at the output ports: `(OK_TX, W)` with the frame `W` on `TX`, or `(OK, 0)`
(42_dispatch.md R135, R136). -/
def frameCompletion (r : CommandResult) (q : Nibble) : Completion :=
  match r.reply with
  | some a => { status := .okTx, data := replyFrame a q, tx := [replyFrame a q], blink := r.blink }
  | none => { status := .ok, data := 0, tx := [], blink := r.blink }

/-- The end of a valid frame's processing: `SEQ` advances once, whatever the class and the reply, and the request is
answered (42_dispatch.md R135, R136). -/
def completeFrame (r : CommandResult) (q : Nibble) : State :=
  finish (setSeq r.state (seqSucc q)) (frameCompletion r q)

/-- `process_frame` (42_dispatch.md R133 to R136) with the command rule already chosen: a wrong checksum drops the frame
before any rule runs (60_exceptions.md R209). -/
def processFields (rule : CommandRule) (c v1 v2 : Byte) (sq ck : Nibble) (s : State) : State :=
  if ck ≠ calcChecksum c v1 v2 sq then raise s .errChecksum (checksumErrorData ck (calcChecksum c v1 v2 sq))
  else completeFrame (rule c v1 v2 s) s.seq

/-- The wire command ESTABLISH_CONNECTION (42_dispatch.md R140). -/
def execEstablishConnection (c v1 v2 : Byte) (sq ck : Nibble) (s : State) : Host.Outcome State Fault Refusal :=
  .next (processFields establishRule c v1 v2 sq ck s)

/-- The wire command ESTABLISH_CONNECTION by another byte of `OPC_ESTABLISH`: the same but for the echoed byte
(42_dispatch.md R140, 90_conflicts.md C9). -/
def execEstablishConnectionAlt (c v1 v2 : Byte) (sq ck : Nibble) (s : State) : Host.Outcome State Fault Refusal :=
  .next (processFields establishRule c v1 v2 sq ck s)

/-- The wire command SET_MOTOR (42_dispatch.md R142). -/
def execSetMotor (v1 v2 : Byte) (sq ck : Nibble) (s : State) : Host.Outcome State Fault Refusal :=
  .next (processFields setMotorRule s.cfg.opcSetMotor v1 v2 sq ck s)

/-- The wire command SET_CAMERA (42_dispatch.md R145). -/
def execSetCamera (v1 v2 : Byte) (sq ck : Nibble) (s : State) : Host.Outcome State Fault Refusal :=
  .next (processFields setCameraRule s.cfg.opcSetCamera v1 v2 sq ck s)

/-- The wire command READ_SENSOR (42_dispatch.md R147). -/
def execReadSensor (v1 v2 : Byte) (sq ck : Nibble) (s : State) : Host.Outcome State Fault Refusal :=
  .next (processFields readSensorRule s.cfg.opcReadSensor v1 v2 sq ck s)

/-- The wire command BLINK (42_dispatch.md R146). -/
def execBlink (v1 v2 : Byte) (sq ck : Nibble) (s : State) : Host.Outcome State Fault Refusal :=
  .next (processFields blinkRule s.cfg.opcBlink v1 v2 sq ck s)

/-- A received MOTOR_ACK code: an unrecognized command (42_dispatch.md R134, R148). Its emission is `motorAckReply`.
DEDUCED, safe: log entry 7. -/
def execMotorAck (v1 v2 : Byte) (sq ck : Nibble) (s : State) : Host.Outcome State Fault Refusal :=
  .next (processFields unrecognizedRule s.cfg.opcMotorAck v1 v2 sq ck s)

/-- A received INVALID_ACK code: an unrecognized command (42_dispatch.md R134, R148). Its emission is `errorAckReply`.
DEDUCED, safe: log entry 7. -/
def execInvalidAck (v1 v2 : Byte) (sq ck : Nibble) (s : State) : Host.Outcome State Fault Refusal :=
  .next (processFields unrecognizedRule s.cfg.opcInvalidAck v1 v2 sq ck s)

/-- An unrecognized command (42_dispatch.md R148). -/
def execUnrecognized (c v1 v2 : Byte) (sq ck : Nibble) (s : State) : Host.Outcome State Fault Refusal :=
  .next (processFields unrecognizedRule c v1 v2 sq ck s)

end Sys2Proof.Machine
end

