-- ==== Sys2Proof/Machine/Reception.lean ====
section
/-! DEFINITION. The two requests that deliver an inbound frame, RX_BYTE and PROCESS_FRAME (42_dispatch.md R130 to R132). -/

namespace Sys2Proof.Machine

/-- `process_frame` on a frame's five fields: validate, classify, run the command's rule, reply, advance
(42_dispatch.md R133 to R136). -/
def processFrame (c v1 v2 : Byte) (sq ck : Nibble) (s : State) : State :=
  processFields (commandRule (classify s.cfg c)) c v1 v2 sq ck s

/-- RX_BYTE (42_dispatch.md R131): bytes 0, 1 and 2 are stored and counted; byte 3 completes the frame word, clears the
buffer and processes the frame. -/
def execRxByte (b : Byte) (s : State) : Host.Outcome State Fault Refusal :=
  if s.rxCount.toNat < 3 then
    .next (respond (setRx s (s.rxCount + 1) (putRxByte s.rxBuf s.rxCount b)) .ok
      (BitVec.ofNat 32 (s.rxCount.toNat + 1)))
  else
    let f : FrameWord := s.rxBuf ++ b
    .next (processFrame (byte0 f) (byte1 f) (byte2 f) (seqNibble f) (checkNibble f) (setRx s 0 0))

/-- PROCESS_FRAME (42_dispatch.md R132): `RX_COUNT` and `RX_BUF` are neither read nor written (R130). -/
def execProcessFrame (c v1 v2 : Byte) (sq ck : Nibble) (s : State) : Host.Outcome State Fault Refusal :=
  .next (processFrame c v1 v2 sq ck s)

end Sys2Proof.Machine
end

