-- ==== Sys2Proof/Machine/Sequence.lean ====
section
/-! DEFINITION. The sequence tracker's requests, SEQ_CURRENT and SEQ_NEXT (41_sequence.md). -/

namespace Sys2Proof.Machine

/-- SEQ_CURRENT (41_sequence.md R121). -/
def execSeqCurrent (s : State) : Host.Outcome State Fault Refusal :=
  .next (respond s .ok (s.seq.setWidth 32))

/-- SEQ_NEXT (41_sequence.md R122, 90_conflicts.md C1): the answer is the value before the advance. -/
def execSeqNext (s : State) : Host.Outcome State Fault Refusal :=
  .next (respond (setSeq s (seqSucc s.seq)) .ok (s.seq.setWidth 32))

end Sys2Proof.Machine
end

