-- ==== Sys2Proof/Machine/Dispatch.lean ====
section
/-! DEFINITION. What each instruction does: one arm per constructor, one meaning per arm. -/

namespace Sys2Proof.Machine

def exec (i : Instr) (s : State) : Host.Outcome State Fault Refusal :=
  match i with
  | .encode cmd v1 v2 seq => Sys2Proof.Machine.execEncode cmd v1 v2 seq s
  | .decode c v1 v2 sq ck => Sys2Proof.Machine.execDecode c v1 v2 sq ck s
  | .seqCurrent => Sys2Proof.Machine.execSeqCurrent s
  | .seqNext => Sys2Proof.Machine.execSeqNext s
  | .rxByte b => Sys2Proof.Machine.execRxByte b s
  | .processFrame c v1 v2 sq ck => Sys2Proof.Machine.execProcessFrame c v1 v2 sq ck s
  | .setTarget ch raw => Sys2Proof.Machine.execSetTarget ch raw s
  | .tick ch => Sys2Proof.Machine.execTick ch s
  | .tickAll => Sys2Proof.Machine.execTickAll s
  | .readChannel ch => Sys2Proof.Machine.execReadChannel ch s
  | .establishConnection c v1 v2 sq ck => Sys2Proof.Machine.execEstablishConnection c v1 v2 sq ck s
  | .establishConnectionAlt c v1 v2 sq ck => Sys2Proof.Machine.execEstablishConnectionAlt c v1 v2 sq ck s
  | .setMotor v1 v2 sq ck => Sys2Proof.Machine.execSetMotor v1 v2 sq ck s
  | .setCamera v1 v2 sq ck => Sys2Proof.Machine.execSetCamera v1 v2 sq ck s
  | .readSensor v1 v2 sq ck => Sys2Proof.Machine.execReadSensor v1 v2 sq ck s
  | .blink v1 v2 sq ck => Sys2Proof.Machine.execBlink v1 v2 sq ck s
  | .motorAck v1 v2 sq ck => Sys2Proof.Machine.execMotorAck v1 v2 sq ck s
  | .invalidAck v1 v2 sq ck => Sys2Proof.Machine.execInvalidAck v1 v2 sq ck s
  | .unrecognized c v1 v2 sq ck => Sys2Proof.Machine.execUnrecognized c v1 v2 sq ck s

end Sys2Proof.Machine
end

