-- ==== Sys2Proof/Machine/Step.lean ====
section
/-! DEFINITION. One step of the FCAG: take the host's next event; a request accepted is decoded (30_encoding.md R76) and
performed as one atomic transition (20_memory.md R58). -/

namespace Sys2Proof.Machine

/-- One step. -/
def step (s : State) : Host.Outcome State Fault Refusal :=
  match fetch s with
  | .settled outcome => outcome
  | .accepted req =>
    match decodeRequest req with
    | .ok i => exec i s
    | .error e => .next (raiseDecode s e)

/-- `s` with the instruction whose table bits are `w` presented on the request port, to be taken by the very next step
(a frame is presented by PROCESS_FRAME: log entry 6). -/
def State.withFetchWord (s : State) (nbits w : Nat) : State := presentRequest s (requestOfTableBits nbits w)

end Sys2Proof.Machine
end

