-- ==== Sys2Proof/Safety.lean ====
section
/-! DEFINITION. The terms that claims about the FCAG use: what makes a frame valid and a reply well made, the governor's result,
the request being presented, the invariant of every run, the relations of non-interference, and running a list of instructions
one after another. They are written from the rules' formulas, not from the machine's functions. -/

namespace Sys2Proof.Machine

/-! ### Frames -/

/-- A checksum nibble is the one of its fields (40_codec.md R100, R102). -/
abbrev checks (c v1 v2 : Byte) (sq ck : Nibble) : Prop :=
  ck.toNat = (c.toNat + 3 * v1.toNat + 5 * v2.toNat + 7 * sq.toNat) % 16

/-- Frame validity (40_codec.md R102). -/
abbrev frameValid (f : FrameWord) : Prop := checks (byte0 f) (byte1 f) (byte2 f) (seqNibble f) (checkNibble f)

/-- `w` is the valid frame that carries the reply triple `(rc, r1, r2)` stamped with `q` (30_encoding.md R84,
42_dispatch.md R135). -/
abbrev isReply (w : FrameWord) (rc r1 r2 : Byte) (q : Nibble) : Prop :=
  byte0 w = rc ∧ byte1 w = r1 ∧ byte2 w = r2 ∧ seqNibble w = q ∧ frameValid w

/-- The five fields of the inbound frame that an instruction carries whole: PROCESS_FRAME's, or a wire command's with its
command byte (30_encoding.md R80, R81). -/
def carries (cfg : Config) : Instr → Option (Byte × Byte × Byte × Nibble × Nibble)
  | .processFrame c v1 v2 sq ck => some (c, v1, v2, sq, ck)
  | .establishConnection c v1 v2 sq ck => some (c, v1, v2, sq, ck)
  | .establishConnectionAlt c v1 v2 sq ck => some (c, v1, v2, sq, ck)
  | .setMotor v1 v2 sq ck => some (cfg.opcSetMotor, v1, v2, sq, ck)
  | .setCamera v1 v2 sq ck => some (cfg.opcSetCamera, v1, v2, sq, ck)
  | .readSensor v1 v2 sq ck => some (cfg.opcReadSensor, v1, v2, sq, ck)
  | .blink v1 v2 sq ck => some (cfg.opcBlink, v1, v2, sq, ck)
  | .motorAck v1 v2 sq ck => some (cfg.opcMotorAck, v1, v2, sq, ck)
  | .invalidAck v1 v2 sq ck => some (cfg.opcInvalidAck, v1, v2, sq, ck)
  | .unrecognized c v1 v2 sq ck => some (c, v1, v2, sq, ck)
  | .encode .. | .decode .. | .seqCurrent | .seqNext | .rxByte .. | .setTarget .. | .tick .. | .tickAll
  | .readChannel .. => none

/-- An instruction completes a valid frame in a state: it carries one whole, or it is the RX_BYTE of its fourth byte
(42_dispatch.md R130, R131). -/
def completesValidFrame (s : State) (i : Instr) : Prop :=
  (∃ c v1 v2 sq ck, carries s.cfg i = some (c, v1, v2, sq, ck) ∧ checks c v1 v2 sq ck) ∨
    ∃ b, i = .rxByte b ∧ s.rxCount = 3 ∧ frameValid (s.rxBuf ++ b)

/-! ### The governor -/

/-- The scaled value of a clamped raw value (43_governor.md R172), over the integers. -/
abbrev scaled (cfg : Config) (a : Byte) : Int :=
  cfg.centerUs + (((a.toNat : Int) - cfg.rawCenter) * cfg.scaleNum).tdiv cfg.scaleDen

/-- The governor takes `raw` to the clamped raw value `a` and the target `t`: clamp, scale, deadband, in this order
(43_governor.md R171 to R174). -/
def governedTo (cfg : Config) (raw a : Byte) (t : Pulse) : Prop :=
  (a.toNat : Int) = max ((cfg.rawCenter : Int) - cfg.rawHalfBand) (min raw.toNat ((cfg.rawCenter : Int) + cfg.rawHalfBand)) ∧
    (t.toNat : Int) = if |scaled cfg a - cfg.centerUs| ≤ cfg.deadbandUs then (cfg.centerUs : Int) else scaled cfg a

/-- One slew step takes `cur` to `n` on the way to `tgt` (43_governor.md R177). -/
def slewsTo (cfg : Config) (cur tgt n : Pulse) : Prop :=
  (n.toNat : Int) =
    if |(tgt.toNat : Int) - cur.toNat| ≤ cfg.stepUs then (tgt.toNat : Int)
    else if cur.toNat < tgt.toNat then (cur.toNat : Int) + cfg.stepUs else (cur.toNat : Int) - cfg.stepUs

/-- The distance of a channel from its target (43_governor.md R181). -/
abbrev distance (s : State) (k : Channel) : Nat := ((s.tgt[k].toNat : Int) - s.cur[k].toNat).natAbs

/-- An instruction ticks a channel: TICK of it, or TICK_ALL (43_governor.md R181). -/
def ticks (k : Channel) (i : Instr) : Bool := decide (i = .tick (BitVec.ofNat 8 k.val) ∨ i = .tickAll)

/-- A request word that, served, ticks a channel (43_governor.md R181). -/
def ticksByWord (k : Channel) (w : RequestWord) : Bool :=
  match decodeRequest w with
  | .ok i => ticks k i
  | .error _ => false

/-- The instructions, run one after another from a state, leave a channel's target alone (43_governor.md R181: "no request writes
`TGT[ch]` during the run"). -/
def leavesTarget (k : Channel) : List Instr → State → Prop
  | [], _ => True
  | i :: is, s => ∀ t, exec i s = .next t → t.tgt[k] = s.tgt[k] ∧ leavesTarget k is t

/-- What `n` ticks of a channel make of it from `s` to `t` (43_governor.md R181): the target stays, the distance has shrunk by `n`
steps, the present value lies between its start and the target, and is at the target exactly if `n` is at least ceil(d / STEP_US). -/
structure RampedBy (n : Nat) (k : Channel) (s t : State) : Prop where
  target : t.tgt[k] = s.tgt[k]
  shrunk : distance t k = distance s k - n * s.cfg.stepUs
  upward : s.cur[k].toNat ≤ s.tgt[k].toNat → s.cur[k].toNat ≤ t.cur[k].toNat ∧ t.cur[k].toNat ≤ s.tgt[k].toNat
  downward : s.tgt[k].toNat ≤ s.cur[k].toNat → s.tgt[k].toNat ≤ t.cur[k].toNat ∧ t.cur[k].toNat ≤ s.cur[k].toNat
  arrived : t.cur[k] = t.tgt[k] ↔ (distance s k + s.cfg.stepUs - 1) / s.cfg.stepUs ≤ n

/-! ### Requests -/

/-- Reset is released, the configuration is well formed, and the host presents the request `w` before `rest`. -/
structure Serves (s : State) (w : RequestWord) (rest : List HostEvent) : Prop where
  serving : s.phase = .serving
  wf : s.cfg.wf
  head : s.port = .request w :: rest

/-- A request of this opcode with a 1 under this mask is answered with ERR_RESERVED and does nothing else
(30_encoding.md R77, 60_exceptions.md R205). -/
def reservedBitsRejected (opc : Byte) (mask : BitVec 32) : Prop :=
  ∀ (s : State) (w : RequestWord) (rest : List HostEvent), Serves s w rest → opcodeOf w = opc →
    payloadOf w &&& mask ≠ 0 →
    step s = .next { s with port := rest, history := ⟨.errReserved, 0, [], []⟩ :: s.history }

/-! ### Invariants -/

/-- A pulse width lies in `[CENTER_US - SPAN, CENTER_US + SPAN]` (43_governor.md R185), over the integers. -/
abbrev inSpan (cfg : Config) (x : BitVec 16) : Prop :=
  (cfg.centerUs : Int) - cfg.span ≤ x.toNat ∧ (x.toNat : Int) ≤ (cfg.centerUs : Int) + cfg.span

/-- Byte `k` of the frame held in `RX_BUF`, bits `23-8k .. 16-8k` (10_state.md R29). -/
abbrev rxByteAt (buf : BitVec 24) (k : Fin 3) : Byte := buf.extractLsb' (16 - 8 * k.val) 8

/-- The bits of `RX_BUF` for bytes not yet received are 0 (10_state.md R29). -/
abbrev rxClean (s : State) : Prop := ∀ k : Fin 3, s.rxCount.toNat ≤ k.val → rxByteAt s.rxBuf k = 0

/-- The invariant of every run: a well-formed configuration, every channel's registers in the governor's interval
(43_governor.md R185), and a clean receive buffer (10_state.md R29). -/
abbrev Inv (s : State) : Prop :=
  s.cfg.wf ∧ (∀ ch : Channel, inSpan s.cfg s.cur[ch] ∧ inSpan s.cfg s.tgt[ch]) ∧ rxClean s

/-! ### Non-interference -/

/-- Two states that differ at most in the direction bits of their configurations (43_governor.md R186). -/
abbrev agreeButDir (s u : State) : Prop := u = { s with cfg := { s.cfg with dir := u.cfg.dir } }

/-- Two states that agree on everything a channel's operations may read for channel `k` (10_state.md R25): the configuration,
the receive buffer and the registers of `k` itself. -/
abbrev agreeOnChannel (k : Channel) (s u : State) : Prop :=
  s.cfg = u.cfg ∧ s.rxCount = u.rxCount ∧ s.rxBuf = u.rxBuf ∧ s.cur[k] = u.cur[k] ∧ s.tgt[k] = u.tgt[k]

/-! ### Runs -/

/-- Several instructions, one after another, each on the state the one before left (20_memory.md R60). -/
def execAll : List Instr → State → Host.Outcome State Fault Refusal
  | [], s => .next s
  | i :: is, s =>
    match exec i s with
    | .next t => execAll is t
    | .fault r => .fault r
    | .refused r => .refused r

end Sys2Proof.Machine
end

