-- ==== Sys2Proof/Certificates/Slice0/Obligations.lean ====
section
/-! DEFINITION. The statements for the provers. A statement that gives the whole next state as an equation states the result and
the frame at once: every element of the state not named in the record update is unchanged. `⟨status, data, tx, blink⟩` is one
completion: the response's status and data, the frames on `TX`, the durations on `BLINK`. -/

open Sys2Proof Sys2Proof.Machine

/-! ### Reset and the inputs -/

/-- While `RESET` is asserted a request is not accepted; on release every element takes its reset value, the configuration is
latched and no event is emitted (70_reset_and_hazards.md R230). The `RESET` input and the reset values of the targets, the receive
buffer and the camera select are the spec's own decisions D34, D43, D52. -/
def Obligations.ResetReleaseGivesResetValues : Prop :=
  ∀ (s : State) (rest : List HostEvent), s.phase = .inReset →
    (∀ w, s.port = .request w :: rest →
      ∃ t, step s = .next t ∧ t = { s with port := t.port } ∧ t.history = s.history) ∧
    (∀ cfg, cfg.wf → s.port = .resetRelease cfg :: rest →
      ∃ t, step s = .next t ∧ t.seq = 0 ∧
        (∀ ch : Channel, t.cur[ch].toNat = cfg.centerUs ∧ t.tgt[ch].toNat = cfg.centerUs) ∧
        t.rxCount = 0 ∧ t.rxBuf = 0 ∧ t.camSel = 0 ∧ t.cfg = cfg ∧ t.phase = .serving ∧ t.port = rest ∧
        t.history = s.history)

/-- Asserting `RESET` stops service. That the elements hold their values until the release is the model's choice (log entry 9). -/
def Obligations.ResetAssertStopsService : Prop :=
  ∀ (s : State) (rest : List HostEvent), s.port = .resetAssert :: rest →
    step s = .next { s with phase := .inReset, port := rest }

/-- After reset every output is the centre pulse whatever the direction bits are (70_reset_and_hazards.md R232). That the sign
acts on the offset is the spec's own decision D33. -/
def Obligations.EscOutAtResetIsCentre : Prop :=
  ∀ (cfg : Config) (ch : Channel), cfg.wf → (escOut (State.resetWith cfg) ch).toNat = cfg.centerUs

/-- The invariant holds right after reset under every well-formed configuration. -/
def Obligations.InvariantHoldsAtReset : Prop := ∀ cfg : Config, cfg.wf → Inv (State.resetWith cfg)

/-- Every step keeps the invariant: well-formed configuration, channels in the governor's interval, unreceived bytes of the buffer
zero (43_governor.md R185, 10_state.md R29). -/
def Obligations.StepKeepsInvariant : Prop := ∀ s t : State, Inv s → step s = .next t → Inv t

/-- In every state reachable from reset, whatever the host presents, every target, present value and output lies in the
governor's interval, inside what the ESC accepts (43_governor.md R185, which the spec derives from R175, R177, R23 and R34). -/
def Obligations.ReachableOutputsInEscRange : Prop :=
  ∀ (cfg : Config) (events : List HostEvent) (n : Nat) (t : State), cfg.wf →
    Host.Core.run Sys2Proof.core n { State.resetWith cfg with port := events } = .next t →
    (∀ ch : Channel, inSpan t.cfg t.tgt[ch] ∧ inSpan t.cfg t.cur[ch] ∧ inSpan t.cfg (escOut t ch)) ∧
      (t.cfg.escMinUs : Int) ≤ (t.cfg.centerUs : Int) - t.cfg.span ∧
      (t.cfg.centerUs : Int) + t.cfg.span ≤ t.cfg.escMaxUs

/-- With nothing presented the FCAG holds its state (60_exceptions.md R218). -/
def Obligations.IdleStateHeld : Prop :=
  ∀ s : State, s.phase ≠ .beforeReset → s.port = [] → step s = .next s

/-- An ill-formed configuration is refused, at the release that presents it and in a state that holds it; so is a configuration
presented without a reset (00_scope.md R8, 70_reset_and_hazards.md R233, 93_implementation_defined.md I22, I24). -/
def Obligations.IllFormedConfigurationRefused : Prop :=
  ∀ (s : State) (rest : List HostEvent),
    (∀ cfg, s.phase = .inReset → s.port = .resetRelease cfg :: rest → ¬cfg.wf →
      step s = .refused .illFormedConfiguration) ∧
    (∀ w, s.phase = .serving → s.port = .request w :: rest → ¬s.cfg.wf →
      step s = .refused .illFormedConfiguration) ∧
    (∀ cfg, s.phase = .serving → s.port = .resetRelease cfg :: rest →
      step s = .refused .configurationWithoutReset)

/-- Before the first reset the machine does not step, but for the assertion of `RESET` (10_state.md R36,
93_implementation_defined.md I23). -/
def Obligations.NoStepBeforeFirstReset : Prop :=
  ∀ s : State, s.phase = .beforeReset → (∀ rest, s.port ≠ .resetAssert :: rest) →
    step s = .fault .beforeFirstReset

/-- The configuration changes only at the release of reset (10_state.md R30). -/
def Obligations.ConfigurationFixedBetweenResets : Prop :=
  ∀ s t : State, step s = .next t →
    t.cfg = s.cfg ∨ ∃ cfg rest, s.phase = .inReset ∧ s.port = .resetRelease cfg :: rest ∧ t.cfg = cfg

/-! ### Steps and requests -/

/-- A step runs the decoded request: when the word presented decodes to `i`, the step is `exec i`, which itself ends the request
(30_encoding.md R76; log entry 5). -/
def Obligations.StepRunsDecodedRequest : Prop :=
  ∀ (s : State) (w : RequestWord) (rest : List HostEvent) (i : Instr), Serves s w rest → decodeRequest w = .ok i →
    step s = exec i s

/-- A step on PROCESS_FRAME runs the wire command that the frame carries under the state's configuration, and so does the
instruction PROCESS_FRAME (42_dispatch.md R132, R134, R136). -/
def Obligations.ProcessFrameRunsWireCommand : Prop :=
  ∀ (s : State) (f : FrameWord),
    exec (.processFrame (byte0 f) (byte1 f) (byte2 f) (seqNibble f) (checkNibble f)) s = exec (decodeFrame s.cfg f) s ∧
      ∀ rest, Serves s (0x06#8 ++ f) rest → step s = exec (decodeFrame s.cfg f) s

/-- An unassigned opcode is answered with ERR_OPCODE, whatever the payload; an assigned one with a 1 under its reserved-zero mask
with ERR_RESERVED; neither writes state or emits an event (30_encoding.md R72, R77). These outcomes are the spec's own decision D6. -/
def Obligations.IllegalWordsRejected : Prop :=
  (∀ (s : State) (w : RequestWord) (rest : List HostEvent), Serves s w rest →
    ((opcodeOf w).toNat = 0x00 ∨ 0x0B ≤ (opcodeOf w).toNat) →
    step s = .next { s with port := rest, history := ⟨.errOpcode, 0, [], []⟩ :: s.history }) ∧
  reservedBitsRejected 0x01 0x0000000F ∧ reservedBitsRejected 0x03 0xFFFFFFFF ∧ reservedBitsRejected 0x04 0xFFFFFFFF ∧
  reservedBitsRejected 0x05 0xFFFFFF00 ∧ reservedBitsRejected 0x07 0xFFFF0000 ∧ reservedBitsRejected 0x08 0xFFFF00FF ∧
  reservedBitsRejected 0x09 0xFFFFFFFF ∧ reservedBitsRejected 0x0A 0xFFFF00FF

/-- Every word presented in a serving state is answered in one step with exactly one response and at most one event, and the next
one is served (70_reset_and_hazards.md R243, 60_exceptions.md R200, 20_memory.md R64). -/
def Obligations.EveryRequestAnsweredOnce : Prop :=
  ∀ (s : State) (w : RequestWord) (rest : List HostEvent), Serves s w rest →
    ∃ t o, step s = .next t ∧ t.history = o :: s.history ∧ t.port = rest ∧ t.phase = .serving ∧ t.cfg = s.cfg ∧
      o.tx.length + o.blink.length ≤ 1

/-- The status table (60_exceptions.md R201): for each error status, exactly which words in which state raise it, and the whole
state after it, so its data, no event, and what it writes. The codes and the data are the spec's own decisions D5, D6, D12. -/
def Obligations.ErrorsWriteNoState : Prop :=
  ∀ (s t : State) (w : RequestWord) (rest : List HostEvent) (o : Completion), Serves s w rest → step s = .next t →
    t.history = o :: s.history →
    ((o.status = .errOpcode ↔ (opcodeOf w).toNat = 0 ∨ 0x0B ≤ (opcodeOf w).toNat) ∧
      (o.status = .errOpcode → t = { s with port := rest, history := ⟨.errOpcode, 0, [], []⟩ :: s.history })) ∧
    ((o.status = .errReserved ↔
        ∃ op, requestOp (opcodeOf w) = some op ∧ op ≠ .decode ∧ op ≠ .processFrame ∧
          payloadOf w &&& reservedZeroMask op ≠ 0) ∧
      (o.status = .errReserved → t = { s with port := rest, history := ⟨.errReserved, 0, [], []⟩ :: s.history })) ∧
    ((o.status = .errChannel ↔
        ∃ op, (op = .setTarget ∨ op = .tick ∨ op = .readChannel) ∧ requestOp (opcodeOf w) = some op ∧
          payloadOf w &&& reservedZeroMask op = 0 ∧ 6 ≤ (byte2 (payloadOf w)).toNat) ∧
      (o.status = .errChannel → t = { s with port := rest, history := ⟨.errChannel, 0, [], []⟩ :: s.history })) ∧
    (o.status = .errChecksum ↔
      ((opcodeOf w = 0x02 ∨ opcodeOf w = 0x06) ∧ ¬frameValid (payloadOf w)) ∨
        (opcodeOf w = 0x05 ∧ payloadOf w &&& 0xFFFFFF00 = 0 ∧ s.rxCount = 3 ∧
          ¬frameValid (s.rxBuf ++ byte3 (payloadOf w)))) ∧
    (o.status = .errChecksum → opcodeOf w ≠ 0x05 →
      ∃ e, checks (byte0 (payloadOf w)) (byte1 (payloadOf w)) (byte2 (payloadOf w)) (seqNibble (payloadOf w)) e ∧
        t = { s with
              port := rest
              history := ⟨.errChecksum, 0#24 ++ checkNibble (payloadOf w) ++ e, [], []⟩ :: s.history }) ∧
    (o.status = .errChecksum → opcodeOf w = 0x05 → ∀ f : FrameWord, f = s.rxBuf ++ byte3 (payloadOf w) →
      ∃ e, checks (byte0 f) (byte1 f) (byte2 f) (seqNibble f) e ∧
        t = { s with
              rxCount := 0
              rxBuf := 0
              port := rest
              history := ⟨.errChecksum, 0#24 ++ checkNibble f ++ e, [], []⟩ :: s.history })

/-- ENCODE, DECODE, SEQ_CURRENT and READ_CHANNEL write no state and emit no event, and repeating one gives the same response again
(20_memory.md R59). -/
def Obligations.ReadOnlyRequestsWriteNothing : Prop :=
  ∀ (i : Instr) (s t : State),
    ((∃ a b c d, i = .encode a b c d) ∨ (∃ a b c d e, i = .decode a b c d e) ∨ i = .seqCurrent ∨ ∃ a, i = .readChannel a) →
    exec i s = .next t →
    ∃ st data, t = { s with port := s.port.tail, history := ⟨st, data, [], []⟩ :: s.history } ∧
      exec i t = .next { s with
        port := s.port.tail.tail
        history := ⟨st, data, [], []⟩ :: ⟨st, data, [], []⟩ :: s.history }

/-! ### Encoding -/

/-- Decoding the word of a well-formed instruction gives the instruction back, with every operand at every value, under every
configuration whose command bytes are distinct (00_scope.md R8 W6; 30_encoding.md R71, R72, R80, R81). -/
def Obligations.DecodeOfEncode : Prop :=
  ∀ (cfg : Config) (i : Instr), cfg.opcodesDistinct → i.wf cfg = true → decode cfg (encode cfg i) = .ok i

/-- A word has one meaning: encoding what it decodes to gives the word back (30_encoding.md R76, R80). -/
def Obligations.EncodeOfDecode : Prop :=
  ∀ (cfg : Config) (w : Encoded) (i : Instr), decode cfg w = .ok i → encode cfg i = w

/-- Every frame word is a well-formed instruction (30_encoding.md R83). -/
def Obligations.EveryFrameWordDecodes : Prop :=
  ∀ (cfg : Config) (f : FrameWord),
    (decodeFrame cfg f).wf cfg = true ∧
      ∃ c v1 v2 sq ck, carries cfg (decodeFrame cfg f) = some (c, v1, v2, sq, ck) ∧ frameWord c v1 v2 sq ck = f

/-- Words written out from the encoding tables (30_encoding.md R72, R79, R81) decode to what they stand for. -/
def Obligations.SpecWordsDecode : Prop :=
  decodeTableWord 40 0x012002FF00 = some (.encode 0x20 0x02 0xFF 0) ∧
  decodeTableWord 40 0x0400000000 = some .seqNext ∧
  decodeTableWord 40 0x05000000AA = some (.rxByte 0xAA) ∧
  decodeTableWord 40 0x07000002FF = some (.setTarget 2 255) ∧
  decodeTableWord 40 0x0700010200 = none ∧
  decodeTableWord 40 0x0B00000000 = none ∧
  decodeTableWord 32 0x2002FF01 = some (.setMotor 2 0xFF 0 1) ∧
  decodeTableWord 32 0x10AA5507 = some (.establishConnectionAlt 0x10 0xAA 0x55 0 7) ∧
  decodeTableWord 32 0x99000010 = some (.unrecognized 0x99 0 0 1 0)

/-! ### The codec -/

/-- Bits 7..4 of the three payload bytes have no effect on the checksum (40_codec.md R101, which the spec derives from R100). -/
def Obligations.ChecksumIgnoresHighNibbles : Prop :=
  ∀ (c v1 v2 : Byte) (sq : Nibble),
    (calcChecksum c v1 v2 sq).toNat = (c.toNat % 16 + 3 * (v1.toNat % 16) + 5 * (v2.toNat % 16) + 7 * sq.toNat) % 16 ∧
      ∀ c' v1' v2' : Byte, c'.toNat % 16 = c.toNat % 16 → v1'.toNat % 16 = v1.toNat % 16 → v2'.toNat % 16 = v2.toNat % 16 →
        calcChecksum c' v1' v2' sq = calcChecksum c v1 v2 sq

/-- DECODE accepts a frame iff its checksum nibble is the weighted sum's, and exactly one nibble is (40_codec.md R102). -/
def Obligations.ExactlyOneChecksumIsValid : Prop :=
  ∀ (c v1 v2 : Byte) (sq : Nibble) (s : State),
    (∀ ck, (∃ t o, exec (.decode c v1 v2 sq ck) s = .next t ∧ t.history = o :: s.history ∧ o.status = .ok) ↔
      checks c v1 v2 sq ck) ∧
    ∃ ck, checks c v1 v2 sq ck ∧ ∀ ck', checks c v1 v2 sq ck' → ck' = ck

/-- ENCODE (40_codec.md R104): its encoding, its answer, its one error. -/
def Obligations.EncodeBuildsFrame : Prop :=
  (∀ (cmd v1 v2 : Byte) (seq : Nibble),
    decodeRequest (0x01#8 ++ cmd ++ v1 ++ v2 ++ seq ++ 0#4) = .ok (.encode cmd v1 v2 seq)) ∧
  (∀ (cmd v1 v2 : Byte) (seq : Nibble) (s : State), ∃ k, checks cmd v1 v2 seq k ∧
    exec (.encode cmd v1 v2 seq) s =
      .next { s with port := s.port.tail, history := ⟨.ok, cmd ++ v1 ++ v2 ++ seq ++ k, [], []⟩ :: s.history }) ∧
  reservedBitsRejected 0x01 0x0000000F

/-- DECODE (40_codec.md R105): its encoding, a match's answer, a mismatch's error with both nibbles. -/
def Obligations.DecodeChecksFrame : Prop :=
  (∀ (c v1 v2 : Byte) (sq ck : Nibble),
    decodeRequest (0x02#8 ++ c ++ v1 ++ v2 ++ sq ++ ck) = .ok (.decode c v1 v2 sq ck)) ∧
  ∀ (c v1 v2 : Byte) (sq ck : Nibble) (s : State),
    (checks c v1 v2 sq ck →
      exec (.decode c v1 v2 sq ck) s =
        .next { s with port := s.port.tail, history := ⟨.ok, c ++ v1 ++ v2 ++ sq ++ 0#4, [], []⟩ :: s.history }) ∧
    (∀ e, checks c v1 v2 sq e → ck ≠ e →
      exec (.decode c v1 v2 sq ck) s =
        .next { s with port := s.port.tail, history := ⟨.errChecksum, 0#24 ++ ck ++ e, [], []⟩ :: s.history })

/-- The codec's round trip, both ways (40_codec.md R106, which the spec derives from R104, R105 and R102). -/
def Obligations.CodecRoundTrip : Prop :=
  (∀ (cmd v1 v2 : Byte) (seq : Nibble) (s t : State) (o : Completion),
    exec (.encode cmd v1 v2 seq) s = .next t → t.history = o :: s.history → ∀ u : State,
      exec (.decode (byte0 o.data) (byte1 o.data) (byte2 o.data) (seqNibble o.data) (checkNibble o.data)) u =
        .next { u with port := u.port.tail, history := ⟨.ok, cmd ++ v1 ++ v2 ++ seq ++ 0#4, [], []⟩ :: u.history }) ∧
  (∀ (w : FrameWord) (s t : State) (o : Completion), frameValid w →
    exec (.decode (byte0 w) (byte1 w) (byte2 w) (seqNibble w) (checkNibble w)) s = .next t → t.history = o :: s.history →
    ∀ u : State, exec (.encode (byte0 o.data) (byte1 o.data) (byte2 o.data) (seqNibble o.data)) u =
      .next { u with port := u.port.tail, history := ⟨.ok, w, [], []⟩ :: u.history })

/-- What the checksum detects, starting from a valid frame (40_codec.md R103, which the spec derives from R100 and R102): single-bit flips (a), (b), (c); a replaced payload byte (d);
a replaced last byte (e). -/
def Obligations.ChecksumDetection : Prop :=
  ∀ f : FrameWord, frameValid f →
    (∀ j, j < 32 →
      (frameValid (f ^^^ (1#32 <<< j)) ↔ (12 ≤ j ∧ j ≤ 15) ∨ (20 ≤ j ∧ j ≤ 23) ∨ (28 ≤ j ∧ j ≤ 31))) ∧
    (∀ b : Byte,
      (frameValid (frameWord b (byte1 f) (byte2 f) (seqNibble f) (checkNibble f)) ↔ b.toNat % 16 = (byte0 f).toNat % 16) ∧
      (frameValid (frameWord (byte0 f) b (byte2 f) (seqNibble f) (checkNibble f)) ↔ b.toNat % 16 = (byte1 f).toNat % 16) ∧
      (frameValid (frameWord (byte0 f) (byte1 f) b (seqNibble f) (checkNibble f)) ↔ b.toNat % 16 = (byte2 f).toNat % 16)) ∧
    (∀ s' k' : Nibble,
      (frameValid (frameWord (byte0 f) (byte1 f) (byte2 f) s' k') ↔
        ((k'.toNat : Int) - (checkNibble f).toNat) % 16 = (7 * ((s'.toNat : Int) - (seqNibble f).toNat)) % 16)) ∧
    ((List.range 256).filter fun b => decide (b ≠ (byte3 f).toNat ∧
      frameValid (frameWord (byte0 f) (byte1 f) (byte2 f) (BitVec.ofNat 4 (b / 16)) (BitVec.ofNat 4 b)))).length = 15

/-! ### The sequence tracker -/

/-- SEQ_CURRENT (41_sequence.md R121). -/
def Obligations.SeqCurrentReads : Prop :=
  decodeRequest (0x03#8 ++ 0#32) = .ok .seqCurrent ∧
  (∀ s : State, exec .seqCurrent s =
    .next { s with port := s.port.tail, history := ⟨.ok, BitVec.ofNat 32 s.seq.toNat, [], []⟩ :: s.history }) ∧
  reservedBitsRejected 0x03 0xFFFFFFFF

/-- SEQ_NEXT returns the value before the advance, and the advance wraps from 15 to 0 (41_sequence.md R120, R122). -/
def Obligations.SeqNextReturnsThenAdvances : Prop :=
  decodeRequest (0x04#8 ++ 0#32) = .ok .seqNext ∧
  (∀ s : State, ∃ q : Nibble, q.toNat = (s.seq.toNat + 1) % 16 ∧ exec .seqNext s =
    .next { s with
      seq := q
      port := s.port.tail
      history := ⟨.ok, BitVec.ofNat 32 s.seq.toNat, [], []⟩ :: s.history }) ∧
  reservedBitsRejected 0x04 0xFFFFFFFF

/-- SEQ_NEXT taken `n` times answers the values from the first on, each mod 16, and leaves the value plus `n` mod 16; so does any
`n`-fold advance (41_sequence.md R124, which the spec derives from R120 and R122). -/
def Obligations.SeqNextWrapsModSixteen : Prop :=
  (∀ (n : Nat) (s : State), ∃ t, execAll (List.replicate n .seqNext) s = .next t ∧
    t.seq.toNat = (s.seq.toNat + n) % 16 ∧
    t.history = ((List.range n).map fun k =>
      (⟨.ok, BitVec.ofNat 32 ((s.seq.toNat + k) % 16), [], []⟩ : Completion)).reverse ++ s.history) ∧
  ∀ (n : Nat) (q : Nibble), (seqSucc^[n] q).toNat = (q.toNat + n) % 16

/-- `SEQ` advances once for SEQ_NEXT and for every inbound frame that passes the checksum, whatever it is, and no other instruction
writes it; nor does any other step, but the release of reset (41_sequence.md R123). That a valid frame without a reply advances it is
the spec's own decision D14. -/
def Obligations.OnlyValidFramesAndSeqNextAdvance : Prop :=
  (∀ (i : Instr) (s t : State), exec i s = .next t →
    ((i = .seqNext ∨ completesValidFrame s i) → t.seq = s.seq + 1) ∧
    (¬(i = .seqNext ∨ completesValidFrame s i) → t.seq = s.seq)) ∧
  ∀ s t : State, step s = .next t → t.seq ≠ s.seq →
    (∃ cfg rest, s.phase = .inReset ∧ s.port = .resetRelease cfg :: rest ∧ t.seq = 0) ∨
    ∃ w rest i, s.port = .request w :: rest ∧ decodeRequest w = .ok i ∧ (i = .seqNext ∨ completesValidFrame s i)

/-- The sequence nibble of a valid inbound frame has no effect beyond its checksum, by either path of delivery (41_sequence.md R125).
That no check is made is the spec's own decision D13. -/
def Obligations.InboundSequenceIgnored : Prop :=
  (∀ (c v1 v2 : Byte) (sq ck sq' ck' : Nibble) (s : State), checks c v1 v2 sq ck → checks c v1 v2 sq' ck' →
    exec (.processFrame c v1 v2 sq ck) s = exec (.processFrame c v1 v2 sq' ck') s) ∧
  ∀ (b b' : Byte) (s : State), s.rxCount = 3 → frameValid (s.rxBuf ++ b) → frameValid (s.rxBuf ++ b') →
    exec (.rxByte b) s = exec (.rxByte b') s

/-! ### Reception and dispatch -/

/-- RX_BYTE (42_dispatch.md R131): its encoding; bytes 0, 1 and 2 land at bits 23-8n .. 16-8n and are counted; the fourth byte completes the
frame, which is processed with the buffer cleared; its reserved bits. The buffer, its layout and
the assembly byte by byte are the spec's own decision D38 (log entry 13). -/
def Obligations.RxByteAssemblesFrame : Prop :=
  (∀ b : Byte, decodeRequest (0x05#8 ++ 0#24 ++ b) = .ok (.rxByte b)) ∧
  (∀ (b : Byte) (s : State) (n : Nat), s.rxCount.toNat = n → n < 3 → ∃ (m : BitVec 2) (buf : BitVec 24),
    m.toNat = n + 1 ∧
    (∀ j, j < 24 → buf.getLsbD j =
      if 16 - 8 * n ≤ j ∧ j ≤ 23 - 8 * n then b.getLsbD (j - (16 - 8 * n)) else s.rxBuf.getLsbD j) ∧
    exec (.rxByte b) s =
      .next { s with
        rxCount := m
        rxBuf := buf
        port := s.port.tail
        history := ⟨.ok, BitVec.ofNat 32 (n + 1), [], []⟩ :: s.history }) ∧
  (∀ (b : Byte) (s : State) (f : FrameWord), s.rxCount = 3 → f = s.rxBuf ++ b →
    exec (.rxByte b) s =
      exec (.processFrame (byte0 f) (byte1 f) (byte2 f) (seqNibble f) (checkNibble f)) { s with rxCount := 0, rxBuf := 0 }) ∧
  reservedBitsRejected 0x05 0xFFFFFF00

/-- A frame has the same effect byte by byte and whole, and PROCESS_FRAME neither reads nor writes the receive buffer
(42_dispatch.md R130). The two ways of delivery and their independence are the spec's own decision D38 (log entry 13). -/
def Obligations.FourBytesActAsOneFrame : Prop :=
  (∀ (f : FrameWord) (s : State), s.rxCount = 0 → ∃ t u,
    execAll [.rxByte (byte0 f), .rxByte (byte1 f), .rxByte (byte2 f), .rxByte (byte3 f)] s = .next t ∧
    exec (.processFrame (byte0 f) (byte1 f) (byte2 f) (seqNibble f) (checkNibble f)) s = .next u ∧
    t = { u with
      rxCount := 0
      rxBuf := 0
      port := s.port.drop 4
      history := u.history.take 1 ++ [⟨.ok, 3, [], []⟩, ⟨.ok, 2, [], []⟩, ⟨.ok, 1, [], []⟩] ++ s.history }) ∧
  (∀ (c v1 v2 : Byte) (sq ck : Nibble) (n : BitVec 2) (buf : BitVec 24) (s u : State),
    exec (.processFrame c v1 v2 sq ck) s = .next u →
    u.rxCount = s.rxCount ∧ u.rxBuf = s.rxBuf ∧
      exec (.processFrame c v1 v2 sq ck) { s with rxCount := n, rxBuf := buf } =
        .next { u with rxCount := n, rxBuf := buf })

/-- An inbound frame with a wrong checksum is dropped: an error response with both nibbles, and nothing else (42_dispatch.md R133).
That it is dropped and not answered with a frame is the spec's own decision D11. -/
def Obligations.InvalidFrameDropped : Prop :=
  ∀ (i : Instr) (s : State) (c v1 v2 : Byte) (sq ck e : Nibble), carries s.cfg i = some (c, v1, v2, sq, ck) →
    checks c v1 v2 sq e → ck ≠ e →
    exec i s =
      .next { s with port := s.port.tail, history := ⟨.errChecksum, 0#24 ++ ck ++ e, [], []⟩ :: s.history }

/-- Every valid inbound frame completes, whatever its command: `SEQ` advances, the channels' present values and the receive buffer stay,
and it is answered with OK_TX and a reply stamped with the sequence before the advance, or with OK (42_dispatch.md R135, R136).
The stamp and the advance without a reply are the spec's own decision D14. -/
def Obligations.ValidFrameCompletes : Prop :=
  ∀ (i : Instr) (s : State) (c v1 v2 : Byte) (sq ck : Nibble), carries s.cfg i = some (c, v1, v2, sq, ck) →
    checks c v1 v2 sq ck →
    ∃ t o, exec i s = .next t ∧ t.seq = s.seq + 1 ∧ t.port = s.port.tail ∧ t.history = o :: s.history ∧
      t.cur = s.cur ∧ t.rxCount = s.rxCount ∧ t.rxBuf = s.rxBuf ∧ t.cfg = s.cfg ∧ t.phase = s.phase ∧
      ((o.status = .okTx ∧ o.blink = [] ∧ ∃ w, o.tx = [w] ∧ o.data = w ∧ seqNibble w = s.seq ∧ frameValid w) ∨
        (o.status = .ok ∧ o.data = 0 ∧ o.tx = []))

/-- ESTABLISH_CONNECTION, by either row (42_dispatch.md R140): the magic bytes are echoed, wrong ones are answered by nothing, and only
`SEQ` is written. The echo and the silence are the spec's own decisions D17, D18. -/
def Obligations.EstablishAnswersMagic : Prop :=
  ∀ (i : Instr) (c v1 v2 : Byte) (sq ck : Nibble) (s : State),
    (i = .establishConnection c v1 v2 sq ck ∨ i = .establishConnectionAlt c v1 v2 sq ck ∨
      (c ∈ s.cfg.opcEstablish ∧ i = .processFrame c v1 v2 sq ck)) →
    checks c v1 v2 sq ck →
    (v1 = s.cfg.magic1 ∧ v2 = s.cfg.magic2 → ∃ w, isReply w c v1 v2 s.seq ∧ exec i s =
      .next { s with seq := s.seq + 1, port := s.port.tail, history := ⟨.okTx, w, [w], []⟩ :: s.history }) ∧
    (¬(v1 = s.cfg.magic1 ∧ v2 = s.cfg.magic2) → exec i s =
      .next { s with seq := s.seq + 1, port := s.port.tail, history := ⟨.ok, 0, [], []⟩ :: s.history })

/-- SET_MOTOR (42_dispatch.md R142): an in-range channel's target becomes the governed value, acknowledged with the clamped raw value;
an out-of-range channel is answered with the error ack and changes no channel. The contents of both acks are the spec's own decisions
D19, D20. -/
def Obligations.SetMotorCommandsChannel : Prop :=
  ∀ (v1 v2 : Byte) (sq ck : Nibble) (s : State), s.cfg.wf → checks s.cfg.opcSetMotor v1 v2 sq ck →
    exec (.processFrame s.cfg.opcSetMotor v1 v2 sq ck) s = exec (.setMotor v1 v2 sq ck) s ∧
    (∀ k : Channel, v1.toNat = k.val → ∃ a t w, governedTo s.cfg v2 a t ∧ isReply w s.cfg.opcMotorAck v1 a s.seq ∧
      exec (.setMotor v1 v2 sq ck) s =
        .next { s with
          seq := s.seq + 1
          tgt := s.tgt.set k.val t k.isLt
          port := s.port.tail
          history := ⟨.okTx, w, [w], []⟩ :: s.history }) ∧
    (6 ≤ v1.toNat → ∃ w, isReply w s.cfg.opcInvalidAck v1 s.cfg.opcSetMotor s.seq ∧
      exec (.setMotor v1 v2 sq ck) s =
        .next { s with seq := s.seq + 1, port := s.port.tail, history := ⟨.okTx, w, [w], []⟩ :: s.history })

/-- SET_CAMERA (42_dispatch.md R145): an index 0..7 is selected, a higher one ignored, no reply; these two are the spec's own decision D23. -/
def Obligations.SetCameraSelects : Prop :=
  ∀ (v1 v2 : Byte) (sq ck : Nibble) (s : State), s.cfg.wf → checks s.cfg.opcSetCamera v1 v2 sq ck →
    exec (.processFrame s.cfg.opcSetCamera v1 v2 sq ck) s = exec (.setCamera v1 v2 sq ck) s ∧
    (v1.toNat ≤ 7 → ∃ x : BitVec 3, x.toNat = v1.toNat ∧ exec (.setCamera v1 v2 sq ck) s =
      .next { s with
        seq := s.seq + 1
        camSel := x
        port := s.port.tail
        history := ⟨.ok, 0, [], []⟩ :: s.history }) ∧
    (8 ≤ v1.toNat → exec (.setCamera v1 v2 sq ck) s =
      .next { s with seq := s.seq + 1, port := s.port.tail, history := ⟨.ok, 0, [], []⟩ :: s.history })

/-- BLINK (42_dispatch.md R146): the duration goes to the indicator as it is, no reply. The emission and the missing reply are the spec's
own decision D24, the `SEQ` advance without a reply D14, the ignored value1 D49 (log entry 13). -/
def Obligations.BlinkEmitsDuration : Prop :=
  ∀ (v1 v2 : Byte) (sq ck : Nibble) (s : State), s.cfg.wf → checks s.cfg.opcBlink v1 v2 sq ck →
    exec (.processFrame s.cfg.opcBlink v1 v2 sq ck) s = exec (.blink v1 v2 sq ck) s ∧
    exec (.blink v1 v2 sq ck) s =
      .next { s with seq := s.seq + 1, port := s.port.tail, history := ⟨.ok, 0, [], [v2]⟩ :: s.history }

/-- READ_SENSOR (42_dispatch.md R147): the error ack with the sensor id, no other effect; that answer is the spec's own decision D22. -/
def Obligations.ReadSensorAnswersErrorAck : Prop :=
  ∀ (v1 v2 : Byte) (sq ck : Nibble) (s : State), s.cfg.wf → checks s.cfg.opcReadSensor v1 v2 sq ck →
    exec (.processFrame s.cfg.opcReadSensor v1 v2 sq ck) s = exec (.readSensor v1 v2 sq ck) s ∧
    ∃ w, isReply w s.cfg.opcInvalidAck v1 s.cfg.opcReadSensor s.seq ∧ exec (.readSensor v1 v2 sq ck) s =
      .next { s with seq := s.seq + 1, port := s.port.tail, history := ⟨.okTx, w, [w], []⟩ :: s.history }

/-- A command byte that is none of the inbound ones, the two outbound codes among them, is answered with the error ack that carries it in
value2, and has no other effect (42_dispatch.md R134, R148). Its value1 and the two outbound codes are the spec's own decisions D21, D25. -/
def Obligations.UnrecognizedAnswersErrorAck : Prop :=
  ∀ (i : Instr) (c v1 v2 : Byte) (sq ck : Nibble) (s : State),
    (i = .unrecognized c v1 v2 sq ck ∨ (c = s.cfg.opcMotorAck ∧ i = .motorAck v1 v2 sq ck) ∨
      (c = s.cfg.opcInvalidAck ∧ i = .invalidAck v1 v2 sq ck) ∨
      (c ∉ s.cfg.opcEstablish ∧ c ≠ s.cfg.opcSetMotor ∧ c ≠ s.cfg.opcSetCamera ∧ c ≠ s.cfg.opcReadSensor ∧
        c ≠ s.cfg.opcBlink ∧ i = .processFrame c v1 v2 sq ck)) →
    checks c v1 v2 sq ck →
    ∃ w, isReply w s.cfg.opcInvalidAck v1 c s.seq ∧ exec i s =
      .next { s with seq := s.seq + 1, port := s.port.tail, history := ⟨.okTx, w, [w], []⟩ :: s.history }

/-- The only command that can change actuator state is SET_MOTOR with an in-range channel, and it changes only that channel's target
(42_dispatch.md R137). -/
def Obligations.FramesChangeOneTargetAtMost : Prop :=
  ∀ (c v1 v2 : Byte) (sq ck : Nibble) (s t : State), exec (.processFrame c v1 v2 sq ck) s = .next t →
    t.cur = s.cur ∧
      (t.tgt = s.tgt ∨
        (c = s.cfg.opcSetMotor ∧ v1.toNat ≤ 5 ∧ checks c v1 v2 sq ck ∧
          ∀ j : Channel, j.val ≠ v1.toNat → t.tgt[j] = s.tgt[j]))

/-- A handshake leaves no connection state: only `SEQ` and the output record tell that it happened (42_dispatch.md R151; the
spec's own decision D26). -/
def Obligations.HandshakeLeavesNoState : Prop :=
  ∀ (c v1 v2 : Byte) (sq ck : Nibble) (s t : State), c ∈ s.cfg.opcEstablish →
    exec (.processFrame c v1 v2 sq ck) s = .next t →
    t = { s with seq := t.seq, port := t.port, history := t.history }

/-- `CAM_SEL` changes only by a valid frame with the SET_CAMERA byte and an index of at most 7 (10_state.md R33; ignoring
higher ones is the spec's own decision D23). -/
def Obligations.OnlySetCameraChangesSelect : Prop :=
  ∀ (i : Instr) (s t : State), exec i s = .next t → t.camSel ≠ s.camSel →
    (∃ v1 v2 sq ck, i = .setCamera v1 v2 sq ck ∧ v1.toNat ≤ 7) ∨
    (∃ v1 v2 sq ck, i = .processFrame s.cfg.opcSetCamera v1 v2 sq ck ∧ v1.toNat ≤ 7) ∨
    (∃ b, i = .rxByte b ∧ s.rxCount = 3 ∧ byte0 (s.rxBuf ++ b) = s.cfg.opcSetCamera ∧
      (byte1 (s.rxBuf ++ b)).toNat ≤ 7)

/-- Every instruction but RX_BYTE leaves a partly received frame as it was: ticks and whole frames are served meanwhile
(42_dispatch.md R130, R131, 70_reset_and_hazards.md R236). -/
def Obligations.PartialFrameSurvivesOtherRequests : Prop :=
  ∀ (i : Instr) (s t : State), (∀ b, i ≠ .rxByte b) → exec i s = .next t →
    t.rxCount = s.rxCount ∧ t.rxBuf = s.rxBuf

/-! ### The governor -/

/-- The governor clamp saturates and never wraps (43_governor.md R171). -/
def Obligations.GovernorClampSaturates : Prop :=
  ∀ (cfg : Config) (raw : Byte), cfg.wf →
    ((govClamp cfg raw).toNat : Int) =
      (if (raw.toNat : Int) < (cfg.rawCenter : Int) - cfg.rawHalfBand then (cfg.rawCenter : Int) - cfg.rawHalfBand
        else if (raw.toNat : Int) > (cfg.rawCenter : Int) + cfg.rawHalfBand then (cfg.rawCenter : Int) + cfg.rawHalfBand
        else raw.toNat) ∧
    (cfg.rawCenter + cfg.rawHalfBand ≤ raw.toNat → gov cfg raw = gov cfg (BitVec.ofNat 8 (cfg.rawCenter + cfg.rawHalfBand))) ∧
    (raw.toNat ≤ cfg.rawCenter - cfg.rawHalfBand → gov cfg raw = gov cfg (BitVec.ofNat 8 (cfg.rawCenter - cfg.rawHalfBand)))

/-- The range of the governor map, its monotonicity, and its values under the reference configuration (43_governor.md R175, which the
spec derives from R171 to R174). The scale and the deadband's edge are its own decisions D29, D30. -/
def Obligations.GovernorMapRange : Prop :=
  (∀ (cfg : Config) (raw : Byte), cfg.wf →
    (cfg.centerUs : Int) - cfg.span ≤ gov cfg raw ∧ gov cfg raw ≤ (cfg.centerUs : Int) + cfg.span ∧
      (cfg.escMinUs : Int) ≤ gov cfg raw ∧ gov cfg raw ≤ cfg.escMaxUs) ∧
  (∀ (cfg : Config) (raw raw' : Byte), cfg.wf → raw.toNat ≤ raw'.toNat → gov cfg raw ≤ gov cfg raw') ∧
  ∀ raw : Byte, gov Config.reference raw =
    if raw.toNat ≤ 28 then 1100
    else if 122 ≤ raw.toNat ∧ raw.toNat ≤ 134 then 1500
    else if raw.toNat ≤ 227 then 1500 + 4 * ((raw.toNat : Int) - 128)
    else 1900

/-- SET_TARGET (43_governor.md R176): its encoding, its effect and answer, its two errors. The scale, the deadband's edge, the answer's
layout and the range check are the spec's own decisions D29, D30, D47, D48. -/
def Obligations.SetTargetCommandsChannel : Prop :=
  (∀ ch raw : Byte, decodeRequest (0x07#8 ++ 0#16 ++ ch ++ raw) = .ok (.setTarget ch raw)) ∧
  (∀ (ch raw : Byte) (k : Channel) (s : State), s.cfg.wf → ch.toNat = k.val → ∃ a t, governedTo s.cfg raw a t ∧
    exec (.setTarget ch raw) s =
      .next { s with
        tgt := s.tgt.set k.val t k.isLt
        port := s.port.tail
        history := ⟨.ok, t ++ 0#8 ++ a, [], []⟩ :: s.history }) ∧
  (∀ (ch raw : Byte) (s : State), 6 ≤ ch.toNat → exec (.setTarget ch raw) s =
    .next { s with port := s.port.tail, history := ⟨.errChannel, 0, [], []⟩ :: s.history }) ∧
  reservedBitsRejected 0x07 0xFFFF0000

/-- TICK (43_governor.md R177, R178): its encoding, one slew step of one channel, never past the target and idempotent at it, its two
errors. -/
def Obligations.TickMovesOneStep : Prop :=
  (∀ ch : Byte, decodeRequest (0x08#8 ++ 0#16 ++ ch ++ 0#8) = .ok (.tick ch)) ∧
  (∀ (ch : Byte) (k : Channel) (s : State), ch.toNat = k.val → ∃ n, slewsTo s.cfg s.cur[k] s.tgt[k] n ∧
    min s.cur[k].toNat s.tgt[k].toNat ≤ n.toNat ∧ n.toNat ≤ max s.cur[k].toNat s.tgt[k].toNat ∧
    exec (.tick ch) s =
      .next { s with
        cur := s.cur.set k.val n k.isLt
        port := s.port.tail
        history := ⟨.ok, 0#16 ++ n, [], []⟩ :: s.history }) ∧
  (∀ (ch : Byte) (s : State), 6 ≤ ch.toNat → exec (.tick ch) s =
    .next { s with port := s.port.tail, history := ⟨.errChannel, 0, [], []⟩ :: s.history }) ∧
  reservedBitsRejected 0x08 0xFFFF00FF

/-- TICK_ALL (43_governor.md R177, R180): its encoding, one slew step of every channel in one request, the mask of channels not yet at
their target, its one error. That one request ticks all channels is the spec's own decision D36 (log entry 13). -/
def Obligations.TickAllMovesEveryChannel : Prop :=
  decodeRequest (0x09#8 ++ 0#32) = .ok .tickAll ∧
  (∀ s : State, ∃ (xs : Vector (BitVec 16) 6) (m : BitVec 32),
    (∀ k : Channel, slewsTo s.cfg s.cur[k] s.tgt[k] xs[k] ∧ (m.getLsbD k.val = true ↔ xs[k] ≠ s.tgt[k])) ∧
    (∀ j, 6 ≤ j → m.getLsbD j = false) ∧
    exec .tickAll s =
      .next { s with cur := xs, port := s.port.tail, history := ⟨.ok, m, [], []⟩ :: s.history }) ∧
  reservedBitsRejected 0x09 0xFFFFFFFF

/-- READ_CHANNEL (43_governor.md R182): its encoding, its answer, its two errors. The request and its data layout are the spec's own
decisions D37, D47 (log entry 13). -/
def Obligations.ReadChannelReads : Prop :=
  (∀ ch : Byte, decodeRequest (0x0A#8 ++ 0#16 ++ ch ++ 0#8) = .ok (.readChannel ch)) ∧
  (∀ (ch : Byte) (k : Channel) (s : State), ch.toNat = k.val → exec (.readChannel ch) s =
    .next { s with port := s.port.tail, history := ⟨.ok, s.tgt[k] ++ s.cur[k], [], []⟩ :: s.history }) ∧
  (∀ (ch : Byte) (s : State), 6 ≤ ch.toNat → exec (.readChannel ch) s =
    .next { s with port := s.port.tail, history := ⟨.errChannel, 0, [], []⟩ :: s.history }) ∧
  reservedBitsRejected 0x0A 0xFFFF00FF

/-- The ramp (43_governor.md R181, which the spec derives from R177): a run of instructions of any kind that leaves the channel's target
alone completes; after `n` ticks of the channel in it, TICK or TICK_ALL, the distance has shrunk by `n` steps, the channel lies between
its start and its target, and it is at the target exactly from tick ceil(d / STEP_US) on. -/
def Obligations.RampLength : Prop :=
  ∀ (k : Channel) (is : List Instr) (s : State), 1 ≤ s.cfg.stepUs → leavesTarget k is s →
    ∃ t, execAll is s = .next t ∧ RampedBy (is.countP (ticks k)) k s t

/-- The ramp over the requests a host presents (43_governor.md R181, which the spec derives from R177): the same for any 40-bit words, the
illegal ones among them, while no step of the run changes the channel's target. -/
def Obligations.RampLengthOfRequests : Prop :=
  ∀ (k : Channel) (ws : List RequestWord) (rest : List HostEvent) (s : State), s.phase = .serving → s.cfg.wf →
    s.port = ws.map HostEvent.request ++ rest →
    (∀ (j : Nat) (u : State), j ≤ ws.length → Host.Core.run Sys2Proof.core j s = .next u → u.tgt[k] = s.tgt[k]) →
    ∃ t : State, Host.Core.run Sys2Proof.core ws.length s = .next t ∧ t.port = rest ∧ RampedBy (ws.countP (ticksByWord k)) k s t

/-- The slew bound (43_governor.md R183, which the spec derives from R177, R176 and R34): one request moves a channel's present value and its output by at most one step, and SET_TARGET and
SET_MOTOR move no output. -/
def Obligations.OneRequestMovesOutputsOneStep : Prop :=
  (∀ (s t : State) (w : RequestWord) (rest : List HostEvent), Inv s → Serves s w rest → step s = .next t → ∀ ch : Channel,
    |(t.cur[ch].toNat : Int) - s.cur[ch].toNat| ≤ s.cfg.stepUs ∧
      |((escOut t ch).toNat : Int) - (escOut s ch).toNat| ≤ s.cfg.stepUs) ∧
  ∀ (i : Instr) (s t : State), ((∃ ch raw, i = .setTarget ch raw) ∨ ∃ v1 v2 sq ck, i = .setMotor v1 v2 sq ck) →
    exec i s = .next t → t.cur = s.cur ∧ t.camSel = s.camSel ∧ ∀ ch : Channel, escOut t ch = escOut s ch

/-- Direction agnosticism (43_governor.md R186, which the spec derives from R170 to R182 and R34): two FCAGs that differ only in their direction bits take the same steps and stay equal but for
those bits, and their outputs are equal where the bits agree and reflected about the centre where they differ. -/
def Obligations.DirectionOnlyReflectsOutputs : Prop :=
  (∀ (n : Nat) (s u t : State), agreeButDir s u → Host.Core.run Sys2Proof.core n s = .next t →
    ∃ v : State, Host.Core.run Sys2Proof.core n u = .next v ∧ agreeButDir t v ∧ t.cur = v.cur ∧ t.tgt = v.tgt) ∧
  ∀ (s u : State), Inv s → agreeButDir s u → ∀ ch : Channel,
    (s.cfg.dir[ch] = u.cfg.dir[ch] → escOut u ch = escOut s ch) ∧
    (s.cfg.dir[ch] ≠ u.cfg.dir[ch] → (escOut s ch).toNat + (escOut u ch).toNat = 2 * s.cfg.centerUs)

/-- Channels are independent (10_state.md R25): what an instruction does to a channel depends on no other channel's registers. -/
def Obligations.ChannelsIndependent : Prop :=
  ∀ (i : Instr) (k : Channel) (s u t v : State), agreeOnChannel k s u → exec i s = .next t → exec i u = .next v →
    agreeOnChannel k t v

/-- Only TICK and TICK_ALL change `CUR`; only SET_TARGET and a SET_MOTOR frame change `TGT` (10_state.md R26, R27). -/
def Obligations.OnlyTicksMoveChannels : Prop :=
  ∀ (i : Instr) (s t : State), exec i s = .next t →
    (t.cur ≠ s.cur → (∃ ch, i = .tick ch) ∨ i = .tickAll) ∧
    (t.tgt ≠ s.tgt → (∃ ch raw, i = .setTarget ch raw) ∨ (∃ v1 v2 sq ck, i = .setMotor v1 v2 sq ck) ∨
      (∃ v1 v2 sq ck, i = .processFrame s.cfg.opcSetMotor v1 v2 sq ck) ∨
      ∃ b, i = .rxByte b ∧ s.rxCount = 3 ∧ byte0 (s.rxBuf ++ b) = s.cfg.opcSetMotor)

/-- The output map (10_state.md R34): the offset from the centre with the channel's sign, exact in every state that meets the invariant. That the
sign acts on the offset is the spec's own decision D33. -/
def Obligations.EscOutReflectsAboutCentre : Prop :=
  ∀ (s : State) (ch : Channel), Inv s →
    ((escOut s ch).toNat : Int) =
      (s.cfg.centerUs : Int) + (if s.cfg.dir[ch] then -1 else 1) * ((s.cur[ch].toNat : Int) - s.cfg.centerUs) ∧
    (s.cfg.dir[ch] = false → escOut s ch = s.cur[ch])
end

