-- ==== Sys2Proof/Laws/State.lean ====
section
/-! SUPPORT. One lemma for each field of the state under each named operation that changes it, so that no later proof
unfolds a record update. -/

namespace Sys2Proof.Machine

variable (s : State)

@[simp] theorem setSeq_seq (q : Nibble) : (setSeq s q).seq = q := rfl
@[simp] theorem setSeq_cur (q : Nibble) : (setSeq s q).cur = s.cur := rfl
@[simp] theorem setSeq_tgt (q : Nibble) : (setSeq s q).tgt = s.tgt := rfl
@[simp] theorem setSeq_rxCount (q : Nibble) : (setSeq s q).rxCount = s.rxCount := rfl
@[simp] theorem setSeq_rxBuf (q : Nibble) : (setSeq s q).rxBuf = s.rxBuf := rfl
@[simp] theorem setSeq_camSel (q : Nibble) : (setSeq s q).camSel = s.camSel := rfl
@[simp] theorem setSeq_cfg (q : Nibble) : (setSeq s q).cfg = s.cfg := rfl
@[simp] theorem setSeq_phase (q : Nibble) : (setSeq s q).phase = s.phase := rfl
@[simp] theorem setSeq_port (q : Nibble) : (setSeq s q).port = s.port := rfl
@[simp] theorem setSeq_history (q : Nibble) : (setSeq s q).history = s.history := rfl

@[simp] theorem setCur_seq (ch : Channel) (x : Pulse) : (setCur s ch x).seq = s.seq := rfl
@[simp] theorem setCur_cur (ch : Channel) (x : Pulse) : (setCur s ch x).cur = s.cur.set ch.val x ch.isLt := rfl
@[simp] theorem setCur_tgt (ch : Channel) (x : Pulse) : (setCur s ch x).tgt = s.tgt := rfl
@[simp] theorem setCur_rxCount (ch : Channel) (x : Pulse) : (setCur s ch x).rxCount = s.rxCount := rfl
@[simp] theorem setCur_rxBuf (ch : Channel) (x : Pulse) : (setCur s ch x).rxBuf = s.rxBuf := rfl
@[simp] theorem setCur_camSel (ch : Channel) (x : Pulse) : (setCur s ch x).camSel = s.camSel := rfl
@[simp] theorem setCur_cfg (ch : Channel) (x : Pulse) : (setCur s ch x).cfg = s.cfg := rfl
@[simp] theorem setCur_phase (ch : Channel) (x : Pulse) : (setCur s ch x).phase = s.phase := rfl
@[simp] theorem setCur_port (ch : Channel) (x : Pulse) : (setCur s ch x).port = s.port := rfl
@[simp] theorem setCur_history (ch : Channel) (x : Pulse) : (setCur s ch x).history = s.history := rfl

@[simp] theorem setAllCur_seq (xs : Vector (BitVec 16) 6) : (setAllCur s xs).seq = s.seq := rfl
@[simp] theorem setAllCur_cur (xs : Vector (BitVec 16) 6) : (setAllCur s xs).cur = xs := rfl
@[simp] theorem setAllCur_tgt (xs : Vector (BitVec 16) 6) : (setAllCur s xs).tgt = s.tgt := rfl
@[simp] theorem setAllCur_rxCount (xs : Vector (BitVec 16) 6) : (setAllCur s xs).rxCount = s.rxCount := rfl
@[simp] theorem setAllCur_rxBuf (xs : Vector (BitVec 16) 6) : (setAllCur s xs).rxBuf = s.rxBuf := rfl
@[simp] theorem setAllCur_camSel (xs : Vector (BitVec 16) 6) : (setAllCur s xs).camSel = s.camSel := rfl
@[simp] theorem setAllCur_cfg (xs : Vector (BitVec 16) 6) : (setAllCur s xs).cfg = s.cfg := rfl
@[simp] theorem setAllCur_phase (xs : Vector (BitVec 16) 6) : (setAllCur s xs).phase = s.phase := rfl
@[simp] theorem setAllCur_port (xs : Vector (BitVec 16) 6) : (setAllCur s xs).port = s.port := rfl
@[simp] theorem setAllCur_history (xs : Vector (BitVec 16) 6) : (setAllCur s xs).history = s.history := rfl

@[simp] theorem setTgt_seq (ch : Channel) (x : Pulse) : (setTgt s ch x).seq = s.seq := rfl
@[simp] theorem setTgt_cur (ch : Channel) (x : Pulse) : (setTgt s ch x).cur = s.cur := rfl
@[simp] theorem setTgt_tgt (ch : Channel) (x : Pulse) : (setTgt s ch x).tgt = s.tgt.set ch.val x ch.isLt := rfl
@[simp] theorem setTgt_rxCount (ch : Channel) (x : Pulse) : (setTgt s ch x).rxCount = s.rxCount := rfl
@[simp] theorem setTgt_rxBuf (ch : Channel) (x : Pulse) : (setTgt s ch x).rxBuf = s.rxBuf := rfl
@[simp] theorem setTgt_camSel (ch : Channel) (x : Pulse) : (setTgt s ch x).camSel = s.camSel := rfl
@[simp] theorem setTgt_cfg (ch : Channel) (x : Pulse) : (setTgt s ch x).cfg = s.cfg := rfl
@[simp] theorem setTgt_phase (ch : Channel) (x : Pulse) : (setTgt s ch x).phase = s.phase := rfl
@[simp] theorem setTgt_port (ch : Channel) (x : Pulse) : (setTgt s ch x).port = s.port := rfl
@[simp] theorem setTgt_history (ch : Channel) (x : Pulse) : (setTgt s ch x).history = s.history := rfl

@[simp] theorem setRx_seq (n : BitVec 2) (b : BitVec 24) : (setRx s n b).seq = s.seq := rfl
@[simp] theorem setRx_cur (n : BitVec 2) (b : BitVec 24) : (setRx s n b).cur = s.cur := rfl
@[simp] theorem setRx_tgt (n : BitVec 2) (b : BitVec 24) : (setRx s n b).tgt = s.tgt := rfl
@[simp] theorem setRx_rxCount (n : BitVec 2) (b : BitVec 24) : (setRx s n b).rxCount = n := rfl
@[simp] theorem setRx_rxBuf (n : BitVec 2) (b : BitVec 24) : (setRx s n b).rxBuf = b := rfl
@[simp] theorem setRx_camSel (n : BitVec 2) (b : BitVec 24) : (setRx s n b).camSel = s.camSel := rfl
@[simp] theorem setRx_cfg (n : BitVec 2) (b : BitVec 24) : (setRx s n b).cfg = s.cfg := rfl
@[simp] theorem setRx_phase (n : BitVec 2) (b : BitVec 24) : (setRx s n b).phase = s.phase := rfl
@[simp] theorem setRx_port (n : BitVec 2) (b : BitVec 24) : (setRx s n b).port = s.port := rfl
@[simp] theorem setRx_history (n : BitVec 2) (b : BitVec 24) : (setRx s n b).history = s.history := rfl

@[simp] theorem setCam_seq (x : BitVec 3) : (setCam s x).seq = s.seq := rfl
@[simp] theorem setCam_cur (x : BitVec 3) : (setCam s x).cur = s.cur := rfl
@[simp] theorem setCam_tgt (x : BitVec 3) : (setCam s x).tgt = s.tgt := rfl
@[simp] theorem setCam_rxCount (x : BitVec 3) : (setCam s x).rxCount = s.rxCount := rfl
@[simp] theorem setCam_rxBuf (x : BitVec 3) : (setCam s x).rxBuf = s.rxBuf := rfl
@[simp] theorem setCam_camSel (x : BitVec 3) : (setCam s x).camSel = x := rfl
@[simp] theorem setCam_cfg (x : BitVec 3) : (setCam s x).cfg = s.cfg := rfl
@[simp] theorem setCam_phase (x : BitVec 3) : (setCam s x).phase = s.phase := rfl
@[simp] theorem setCam_port (x : BitVec 3) : (setCam s x).port = s.port := rfl
@[simp] theorem setCam_history (x : BitVec 3) : (setCam s x).history = s.history := rfl

@[simp] theorem finish_seq (c : Completion) : (finish s c).seq = s.seq := rfl
@[simp] theorem finish_cur (c : Completion) : (finish s c).cur = s.cur := rfl
@[simp] theorem finish_tgt (c : Completion) : (finish s c).tgt = s.tgt := rfl
@[simp] theorem finish_rxCount (c : Completion) : (finish s c).rxCount = s.rxCount := rfl
@[simp] theorem finish_rxBuf (c : Completion) : (finish s c).rxBuf = s.rxBuf := rfl
@[simp] theorem finish_camSel (c : Completion) : (finish s c).camSel = s.camSel := rfl
@[simp] theorem finish_cfg (c : Completion) : (finish s c).cfg = s.cfg := rfl
@[simp] theorem finish_phase (c : Completion) : (finish s c).phase = s.phase := rfl
@[simp] theorem finish_port (c : Completion) : (finish s c).port = s.port.tail := rfl
@[simp] theorem finish_history (c : Completion) : (finish s c).history = c :: s.history := rfl

@[simp] theorem respond_seq (st : Status) (data : BitVec 32) : (respond s st data).seq = s.seq := rfl
@[simp] theorem respond_cur (st : Status) (data : BitVec 32) : (respond s st data).cur = s.cur := rfl
@[simp] theorem respond_tgt (st : Status) (data : BitVec 32) : (respond s st data).tgt = s.tgt := rfl
@[simp] theorem respond_rxCount (st : Status) (data : BitVec 32) : (respond s st data).rxCount = s.rxCount := rfl
@[simp] theorem respond_rxBuf (st : Status) (data : BitVec 32) : (respond s st data).rxBuf = s.rxBuf := rfl
@[simp] theorem respond_camSel (st : Status) (data : BitVec 32) : (respond s st data).camSel = s.camSel := rfl
@[simp] theorem respond_cfg (st : Status) (data : BitVec 32) : (respond s st data).cfg = s.cfg := rfl
@[simp] theorem respond_phase (st : Status) (data : BitVec 32) : (respond s st data).phase = s.phase := rfl
@[simp] theorem respond_port (st : Status) (data : BitVec 32) : (respond s st data).port = s.port.tail := rfl
@[simp] theorem respond_history (st : Status) (data : BitVec 32) : (respond s st data).history = { status := st, data := data, tx := [], blink := [] } :: s.history := rfl

@[simp] theorem raise_seq (st : Status) (info : BitVec 32) : (raise s st info).seq = s.seq := rfl
@[simp] theorem raise_cur (st : Status) (info : BitVec 32) : (raise s st info).cur = s.cur := rfl
@[simp] theorem raise_tgt (st : Status) (info : BitVec 32) : (raise s st info).tgt = s.tgt := rfl
@[simp] theorem raise_rxCount (st : Status) (info : BitVec 32) : (raise s st info).rxCount = s.rxCount := rfl
@[simp] theorem raise_rxBuf (st : Status) (info : BitVec 32) : (raise s st info).rxBuf = s.rxBuf := rfl
@[simp] theorem raise_camSel (st : Status) (info : BitVec 32) : (raise s st info).camSel = s.camSel := rfl
@[simp] theorem raise_cfg (st : Status) (info : BitVec 32) : (raise s st info).cfg = s.cfg := rfl
@[simp] theorem raise_phase (st : Status) (info : BitVec 32) : (raise s st info).phase = s.phase := rfl
@[simp] theorem raise_port (st : Status) (info : BitVec 32) : (raise s st info).port = s.port.tail := rfl
@[simp] theorem raise_history (st : Status) (info : BitVec 32) : (raise s st info).history = { status := st, data := info, tx := [], blink := [] } :: s.history := rfl

@[simp] theorem dropEvent_seq : (dropEvent s).seq = s.seq := rfl
@[simp] theorem dropEvent_cur : (dropEvent s).cur = s.cur := rfl
@[simp] theorem dropEvent_tgt : (dropEvent s).tgt = s.tgt := rfl
@[simp] theorem dropEvent_rxCount : (dropEvent s).rxCount = s.rxCount := rfl
@[simp] theorem dropEvent_rxBuf : (dropEvent s).rxBuf = s.rxBuf := rfl
@[simp] theorem dropEvent_camSel : (dropEvent s).camSel = s.camSel := rfl
@[simp] theorem dropEvent_cfg : (dropEvent s).cfg = s.cfg := rfl
@[simp] theorem dropEvent_phase : (dropEvent s).phase = s.phase := rfl
@[simp] theorem dropEvent_port : (dropEvent s).port = s.port.tail := rfl
@[simp] theorem dropEvent_history : (dropEvent s).history = s.history := rfl

@[simp] theorem assertReset_seq : (assertReset s).seq = s.seq := rfl
@[simp] theorem assertReset_cur : (assertReset s).cur = s.cur := rfl
@[simp] theorem assertReset_tgt : (assertReset s).tgt = s.tgt := rfl
@[simp] theorem assertReset_rxCount : (assertReset s).rxCount = s.rxCount := rfl
@[simp] theorem assertReset_rxBuf : (assertReset s).rxBuf = s.rxBuf := rfl
@[simp] theorem assertReset_camSel : (assertReset s).camSel = s.camSel := rfl
@[simp] theorem assertReset_cfg : (assertReset s).cfg = s.cfg := rfl
@[simp] theorem assertReset_phase : (assertReset s).phase = .inReset := rfl
@[simp] theorem assertReset_port : (assertReset s).port = s.port.tail := rfl
@[simp] theorem assertReset_history : (assertReset s).history = s.history := rfl

@[simp] theorem releaseReset_seq (cfg : Config) : (releaseReset s cfg).seq = 0 := rfl
@[simp] theorem releaseReset_cur (cfg : Config) : (releaseReset s cfg).cur = Vector.replicate 6 (BitVec.ofNat 16 cfg.centerUs) := rfl
@[simp] theorem releaseReset_tgt (cfg : Config) : (releaseReset s cfg).tgt = Vector.replicate 6 (BitVec.ofNat 16 cfg.centerUs) := rfl
@[simp] theorem releaseReset_rxCount (cfg : Config) : (releaseReset s cfg).rxCount = 0 := rfl
@[simp] theorem releaseReset_rxBuf (cfg : Config) : (releaseReset s cfg).rxBuf = 0 := rfl
@[simp] theorem releaseReset_camSel (cfg : Config) : (releaseReset s cfg).camSel = 0 := rfl
@[simp] theorem releaseReset_cfg (cfg : Config) : (releaseReset s cfg).cfg = cfg := rfl
@[simp] theorem releaseReset_phase (cfg : Config) : (releaseReset s cfg).phase = .serving := rfl
@[simp] theorem releaseReset_port (cfg : Config) : (releaseReset s cfg).port = s.port.tail := rfl
@[simp] theorem releaseReset_history (cfg : Config) : (releaseReset s cfg).history = s.history := rfl

@[simp] theorem presentRequest_seq (req : RequestWord) : (presentRequest s req).seq = s.seq := rfl
@[simp] theorem presentRequest_cur (req : RequestWord) : (presentRequest s req).cur = s.cur := rfl
@[simp] theorem presentRequest_tgt (req : RequestWord) : (presentRequest s req).tgt = s.tgt := rfl
@[simp] theorem presentRequest_rxCount (req : RequestWord) : (presentRequest s req).rxCount = s.rxCount := rfl
@[simp] theorem presentRequest_rxBuf (req : RequestWord) : (presentRequest s req).rxBuf = s.rxBuf := rfl
@[simp] theorem presentRequest_camSel (req : RequestWord) : (presentRequest s req).camSel = s.camSel := rfl
@[simp] theorem presentRequest_cfg (req : RequestWord) : (presentRequest s req).cfg = s.cfg := rfl
@[simp] theorem presentRequest_phase (req : RequestWord) : (presentRequest s req).phase = .serving := rfl
@[simp] theorem presentRequest_port (req : RequestWord) : (presentRequest s req).port = .request req :: s.port := rfl
@[simp] theorem presentRequest_history (req : RequestWord) : (presentRequest s req).history = s.history := rfl

end Sys2Proof.Machine
end

