-- ==== Sys2Proof/Laws/Words.lean ====
section
/-! SUPPORT. The words of frames and requests: taking apart what was put together, and putting together what was taken
apart, field by field. -/

namespace Sys2Proof

theorem getLsbD_frameWord (c v1 v2 : Byte) (sq ck : Nibble) (i : Nat) :
    (frameWord c v1 v2 sq ck).getLsbD i =
      if i < 4 then ck.getLsbD i else if i < 8 then sq.getLsbD (i - 4) else if i < 16 then v2.getLsbD (i - 8)
      else if i < 24 then v1.getLsbD (i - 16) else c.getLsbD (i - 24) := by
  unfold frameWord
  change BitVec.getLsbD (w := 8 + 8 + 8 + 4 + 4) _ i = _
  simp only [BitVec.getLsbD_append]
  grind

theorem getLsbD_bytesWord (a b c d : Byte) (i : Nat) :
    (bytesWord a b c d).getLsbD i =
      if i < 8 then d.getLsbD i else if i < 16 then c.getLsbD (i - 8) else if i < 24 then b.getLsbD (i - 16)
      else a.getLsbD (i - 24) := by
  unfold bytesWord
  change BitVec.getLsbD (w := 8 + 8 + 8 + 8) _ i = _
  simp only [BitVec.getLsbD_append]
  grind

theorem getLsbD_requestWord (opc : Byte) (p : BitVec 32) (i : Nat) :
    (requestWord opc p).getLsbD i = if i < 32 then p.getLsbD i else opc.getLsbD (i - 32) := by
  unfold requestWord
  change BitVec.getLsbD (w := 8 + 32) _ i = _
  simp only [BitVec.getLsbD_append]

@[simp] theorem opcodeOf_requestWord (opc : Byte) (p : BitVec 32) : opcodeOf (requestWord opc p) = opc := by
  apply BitVec.eq_of_getLsbD_eq
  intro i hi
  simp only [opcodeOf, BitVec.getLsbD_extractLsb', getLsbD_requestWord]
  grind

@[simp] theorem payloadOf_requestWord (opc : Byte) (p : BitVec 32) : payloadOf (requestWord opc p) = p := by
  apply BitVec.eq_of_getLsbD_eq
  intro i hi
  simp only [payloadOf, BitVec.getLsbD_extractLsb', getLsbD_requestWord]
  grind

theorem requestWord_parts (w : RequestWord) : requestWord (opcodeOf w) (payloadOf w) = w := by
  apply BitVec.eq_of_getLsbD_eq
  intro i hi
  simp only [opcodeOf, payloadOf, BitVec.getLsbD_extractLsb', getLsbD_requestWord]
  grind

section fields

variable (c v1 v2 : Byte) (sq ck : Nibble)

@[simp] theorem byte0_frameWord : byte0 (frameWord c v1 v2 sq ck) = c := by
  apply BitVec.eq_of_getLsbD_eq
  intro i hi
  simp only [byte0, BitVec.getLsbD_extractLsb', getLsbD_frameWord]
  grind

@[simp] theorem byte1_frameWord : byte1 (frameWord c v1 v2 sq ck) = v1 := by
  apply BitVec.eq_of_getLsbD_eq
  intro i hi
  simp only [byte1, BitVec.getLsbD_extractLsb', getLsbD_frameWord]
  grind

@[simp] theorem byte2_frameWord : byte2 (frameWord c v1 v2 sq ck) = v2 := by
  apply BitVec.eq_of_getLsbD_eq
  intro i hi
  simp only [byte2, BitVec.getLsbD_extractLsb', getLsbD_frameWord]
  grind

@[simp] theorem seqNibble_frameWord : seqNibble (frameWord c v1 v2 sq ck) = sq := by
  apply BitVec.eq_of_getLsbD_eq
  intro i hi
  simp only [seqNibble, BitVec.getLsbD_extractLsb', getLsbD_frameWord]
  grind

@[simp] theorem checkNibble_frameWord : checkNibble (frameWord c v1 v2 sq ck) = ck := by
  apply BitVec.eq_of_getLsbD_eq
  intro i hi
  simp only [checkNibble, BitVec.getLsbD_extractLsb', getLsbD_frameWord]
  grind

end fields

theorem frameWord_fields (f : FrameWord) :
    frameWord (byte0 f) (byte1 f) (byte2 f) (seqNibble f) (checkNibble f) = f := by
  apply BitVec.eq_of_getLsbD_eq
  intro i hi
  simp only [getLsbD_frameWord, byte0, byte1, byte2, seqNibble, checkNibble, BitVec.getLsbD_extractLsb']
  grind

section bytes

variable (a b c d : Byte)

@[simp] theorem byte0_bytesWord : byte0 (bytesWord a b c d) = a := by
  apply BitVec.eq_of_getLsbD_eq
  intro i hi
  simp only [byte0, BitVec.getLsbD_extractLsb', getLsbD_bytesWord]
  grind

@[simp] theorem byte1_bytesWord : byte1 (bytesWord a b c d) = b := by
  apply BitVec.eq_of_getLsbD_eq
  intro i hi
  simp only [byte1, BitVec.getLsbD_extractLsb', getLsbD_bytesWord]
  grind

@[simp] theorem byte2_bytesWord : byte2 (bytesWord a b c d) = c := by
  apply BitVec.eq_of_getLsbD_eq
  intro i hi
  simp only [byte2, BitVec.getLsbD_extractLsb', getLsbD_bytesWord]
  grind

@[simp] theorem byte3_bytesWord : byte3 (bytesWord a b c d) = d := by
  apply BitVec.eq_of_getLsbD_eq
  intro i hi
  simp only [byte3, BitVec.getLsbD_extractLsb', getLsbD_bytesWord]
  grind

end bytes

theorem bytesWord_bytes (p : BitVec 32) : bytesWord (byte0 p) (byte1 p) (byte2 p) (byte3 p) = p := by
  apply BitVec.eq_of_getLsbD_eq
  intro i hi
  simp only [getLsbD_bytesWord, byte0, byte1, byte2, byte3, BitVec.getLsbD_extractLsb']
  grind

/-- A request word with a known opcode decodes by that opcode's mask and operands (30_encoding.md R76). -/
theorem decodeRequest_of_op {w : RequestWord} {op : RequestOp} (h : requestOp (opcodeOf w) = some op) :
    decodeRequest w =
      if payloadOf w &&& reservedZeroMask op ≠ 0 then .error .reservedBits
      else .ok (requestInstr op (payloadOf w)) := by
  simp only [decodeRequest, h]

/-- A request word whose opcode is unassigned (30_encoding.md R77). -/
theorem decodeRequest_of_none {w : RequestWord} (h : requestOp (opcodeOf w) = none) :
    decodeRequest w = .error .unassignedOpcode := by
  simp only [decodeRequest, h]

/-- The opcode byte that each assigned name stands for (30_encoding.md R72). -/
def opcodeByte : RequestOp → Byte
  | .encode => 0x01
  | .decode => 0x02
  | .seqCurrent => 0x03
  | .seqNext => 0x04
  | .rxByte => 0x05
  | .processFrame => 0x06
  | .setTarget => 0x07
  | .tick => 0x08
  | .tickAll => 0x09
  | .readChannel => 0x0A

@[simp] theorem requestOp_opcodeByte (op : RequestOp) : requestOp (opcodeByte op) = some op := by
  cases op <;> rfl

theorem requestOp_eq_some {b : Byte} {op : RequestOp} : requestOp b = some op ↔ b = opcodeByte op := by
  constructor
  · intro h
    have all : ∀ b : Byte, ∀ op, requestOp b = some op → b = opcodeByte op := by
      intro b op h
      apply BitVec.eq_of_toNat_eq
      unfold requestOp at h
      split at h <;> simp_all <;> subst h <;> rfl
    exact all b op h
  · rintro rfl
    exact requestOp_opcodeByte op

/-- The unassigned opcodes are 0x00 and 0x0B to 0xFF (30_encoding.md R72). -/
theorem requestOp_eq_none {b : Byte} : requestOp b = none ↔ b.toNat = 0 ∨ 0x0B ≤ b.toNat := by
  unfold requestOp
  split <;> simp_all
  omega

end Sys2Proof
end

