-- ==== Sys2Proof/Laws/Ops.lean ====
section
/-! SUPPORT. For each shared operation, what it does, said once. -/

namespace Sys2Proof.Machine

/-! ### Channels -/

theorem channelOf_of_valid {ch : Byte} (h : ch.toNat ≤ 5) : channelOf ch = some ⟨ch.toNat, Nat.lt_succ_of_le h⟩ :=
  dif_pos h

theorem channelOf_of_invalid {ch : Byte} (h : 5 < ch.toNat) : channelOf ch = none :=
  dif_neg (Nat.not_le.mpr h)

/-- A channel operand names exactly the channel of its own value. -/
theorem channelOf_eq_some {ch : Byte} {k : Channel} : channelOf ch = some k ↔ ch.toNat = k.val := by
  unfold channelOf
  split
  · rw [Option.some.injEq, Fin.ext_iff]
  · have := k.isLt
    simp only [reduceCtorEq, false_iff]
    omega

theorem onChannel_of_some {s : State} {ch : Byte} {k : Channel} (effect : Channel → State) (h : channelOf ch = some k) :
    onChannel s ch effect = effect k := by
  simp only [onChannel, h]

theorem onChannel_of_none {s : State} {ch : Byte} (effect : Channel → State) (h : channelOf ch = none) :
    onChannel s ch effect = raise s .errChannel 0 := by
  simp only [onChannel, h]

@[simp] theorem perChannel_getElem {α : Type} (f : Channel → α) (k : Channel) : (perChannel f)[k] = f k := by
  fin_cases k <;> rfl

/-- Writing one channel's register leaves the others and shows the value written. -/
theorem getElem_set_channel {α : Type} (v : Vector α 6) (k j : Channel) (x : α) :
    (v.set k.val x k.isLt)[j] = if j = k then x else v[j] := by
  rw [Fin.getElem_fin, Vector.getElem_set]
  by_cases h : j = k
  · simp [h]
  · rw [if_neg h, if_neg (fun e => h (Fin.ext e.symm)), Fin.getElem_fin]

/-! ### The slew step -/

/-- The slew step stays between the present value and the target, both included. -/
theorem tickStepInt_between (step cur tgt : Int) (h : 0 ≤ step) :
    min cur tgt ≤ tickStepInt step cur tgt ∧ tickStepInt step cur tgt ≤ max cur tgt := by
  unfold tickStepInt
  rcases lt_trichotomy (tgt - cur) 0 with hd | hd | hd
  · rw [Int.sign_eq_neg_one_of_neg hd]; split <;> omega
  · rw [hd, Int.sign_zero]; split <;> omega
  · rw [Int.sign_eq_one_of_pos hd]; split <;> omega

/-- No slew step is cut by the register's width. -/
theorem tickStep_toNat (cfg : Config) (cur tgt : Pulse) :
    ((tickStep cfg cur tgt).toNat : Int) = tickStepInt cfg.stepUs cur.toNat tgt.toNat := by
  have h := tickStepInt_between cfg.stepUs cur.toNat tgt.toNat (Int.natCast_nonneg _)
  have hc := cur.isLt
  have ht := tgt.isLt
  rw [tickStep, BitVec.toNat_ofInt]
  omega

/-- A slew step at the target stays there. -/
theorem tickStep_self (cfg : Config) (x : Pulse) : tickStep cfg x x = x := by
  apply BitVec.eq_of_toNat_eq
  have h := tickStep_toNat cfg x x
  simp only [tickStepInt, sub_self, Int.natAbs_zero, Nat.cast_zero, Int.natCast_nonneg, if_true] at h
  exact_mod_cast h

/-! ### Frame processing -/

section frames

variable (rule : CommandRule) (c v1 v2 : Byte) (sq ck : Nibble) (s : State)

/-- A wrong checksum ends the request with ERR_CHECKSUM and nothing else (42_dispatch.md R133). -/
theorem processFields_of_invalid (h : ck ≠ calcChecksum c v1 v2 sq) :
    processFields rule c v1 v2 sq ck s = raise s .errChecksum (checksumErrorData ck (calcChecksum c v1 v2 sq)) :=
  if_pos h

/-- A valid frame runs its command's rule and completes (42_dispatch.md R134 to R136). -/
theorem processFields_of_valid (h : ck = calcChecksum c v1 v2 sq) :
    processFields rule c v1 v2 sq ck s = completeFrame (rule c v1 v2 s) s.seq :=
  if_neg (not_not.mpr h)

end frames

/-- A command rule writes one target, or the camera select, or nothing (42_dispatch.md R137, R145). -/
theorem commandRule_state (k : CommandClass) (c v1 v2 : Byte) (s : State) :
    (commandRule k c v1 v2 s).state = s ∨
      (k = .setMotor ∧ ∃ ch : Channel, v1.toNat = ch.val ∧
        (commandRule k c v1 v2 s).state = setTgt s ch (govTarget s.cfg v2)) ∨
      (k = .setCamera ∧ v1.toNat ≤ 7 ∧ (commandRule k c v1 v2 s).state = setCam s (v1.extractLsb' 0 3)) := by
  cases k with
  | setMotor =>
    simp only [commandRule, setMotorRule]
    cases h : channelOf v1 with
    | none => exact .inl rfl
    | some ch => exact .inr (.inl ⟨trivial, ch, channelOf_eq_some.mp h, rfl⟩)
  | setCamera =>
    by_cases h : v1.toNat ≤ 7
    · exact .inr (.inr ⟨rfl, h, if_pos h⟩)
    · exact .inl (if_neg h)
  | establish => exact .inl rfl
  | readSensor => exact .inl rfl
  | blink => exact .inl rfl
  | unrecognized => exact .inl rfl

/-- A command rule gives at most one of a reply and a blink request (20_memory.md R64). -/
theorem commandRule_events (k : CommandClass) (c v1 v2 : Byte) (s : State) :
    (commandRule k c v1 v2 s).blink = [] ∨
      ((commandRule k c v1 v2 s).reply = none ∧ (commandRule k c v1 v2 s).blink = [v2]) := by
  cases k with
  | setMotor =>
    simp only [commandRule, setMotorRule]
    split <;> exact .inl rfl
  | blink => exact .inr ⟨rfl, rfl⟩
  | establish => exact .inl rfl
  | setCamera => exact .inl rfl
  | readSensor => exact .inl rfl
  | unrecognized => exact .inl rfl

/-! ### The host's events -/

section events

variable {s : State}

/-- A request is accepted in a serving state with a well-formed configuration. -/
theorem fetch_request {w : RequestWord} {rest : List HostEvent} (hp : s.phase = .serving) (hw : s.cfg.wf)
    (h : s.port = .request w :: rest) : fetch s = .accepted w := by
  simp only [fetch, hp, h]
  exact if_pos hw

/-- What `fetch` can answer, said once. -/
theorem fetch_cases (s : State) :
    (s.phase = .beforeReset ∧ fetch s = .settled (.fault .beforeFirstReset)) ∨
    (s.port = [] ∧ fetch s = .settled (.next s)) ∨
    (∃ rest, s.port = .resetAssert :: rest ∧ fetch s = .settled (.next (assertReset s))) ∨
    (s.phase = .inReset ∧ (∃ e rest, s.port = e :: rest ∧ ∀ c, e ≠ .resetRelease c) ∧
      fetch s = .settled (.next (dropEvent s))) ∨
    (∃ cfg rest, s.phase = .inReset ∧ s.port = .resetRelease cfg :: rest ∧ cfg.wf ∧
      fetch s = .settled (.next (releaseReset s cfg))) ∨
    (∃ r, fetch s = .settled (.refused r)) ∨
    (∃ w rest, s.phase = .serving ∧ s.port = .request w :: rest ∧ s.cfg.wf ∧ fetch s = .accepted w) := by
  cases hp : s.phase with
  | beforeReset =>
    rcases h : s.port with _ | ⟨e, rest⟩
    · exact .inl ⟨rfl, by simp only [fetch, hp, h]⟩
    · cases e with
      | resetAssert => exact .inr (.inr (.inl ⟨rest, rfl, by simp only [fetch, hp, h]⟩))
      | request w => exact .inl ⟨rfl, by simp only [fetch, hp, h]⟩
      | resetRelease c => exact .inl ⟨rfl, by simp only [fetch, hp, h]⟩
  | inReset =>
    rcases h : s.port with _ | ⟨e, rest⟩
    · exact .inr (.inl ⟨rfl, by simp only [fetch, hp, h]⟩)
    · cases e with
      | resetAssert =>
        exact .inr (.inr (.inr (.inl ⟨rfl, ⟨_, rest, rfl, fun _ => HostEvent.noConfusion⟩, by simp only [fetch, hp, h]⟩)))
      | request w =>
        exact .inr (.inr (.inr (.inl ⟨rfl, ⟨_, rest, rfl, fun _ => HostEvent.noConfusion⟩, by simp only [fetch, hp, h]⟩)))
      | resetRelease c =>
        by_cases hw : c.wf
        · exact .inr (.inr (.inr (.inr (.inl ⟨c, rest, rfl, rfl, hw, by simp only [fetch, hp, h]; rw [if_pos hw]⟩))))
        · exact .inr (.inr (.inr (.inr (.inr (.inl ⟨_, by simp only [fetch, hp, h]; rw [if_neg hw]⟩)))))
  | serving =>
    rcases h : s.port with _ | ⟨e, rest⟩
    · exact .inr (.inl ⟨rfl, by simp only [fetch, hp, h]⟩)
    · cases e with
      | resetAssert => exact .inr (.inr (.inl ⟨rest, rfl, by simp only [fetch, hp, h]⟩))
      | resetRelease c =>
        exact .inr (.inr (.inr (.inr (.inr (.inl ⟨.configurationWithoutReset, by simp only [fetch, hp, h]⟩)))))
      | request w =>
        by_cases hw : s.cfg.wf
        · exact .inr (.inr (.inr (.inr (.inr (.inr ⟨w, rest, rfl, rfl, hw, fetch_request hp hw h⟩)))))
        · exact .inr (.inr (.inr (.inr (.inr (.inl ⟨_, by simp only [fetch, hp, h]; rw [if_neg hw]⟩)))))

end events

end Sys2Proof.Machine
end

