-- ==== Sys2Proof/Laws/Exec.lean ====
section
/-! SUPPORT. What an instruction can do to the state, and what a step can do, said once: every later fact about all
instructions or all steps is a case analysis on these two. -/

namespace Sys2Proof.Machine

/-- The states that an instruction's register writes can leave, before its request is ended. -/
inductive Writes (s : State) : State → Prop
  /-- No register is written. -/
  | nothing : Writes s s
  /-- SEQ_NEXT. -/
  | seq : Writes s (setSeq s (seqSucc s.seq))
  /-- RX_BYTE before the fourth byte. -/
  | rxStore (b : Byte) (h : s.rxCount.toNat < 3) :
    Writes s (setRx s (s.rxCount + 1) (putRxByte s.rxBuf s.rxCount b))
  /-- RX_BYTE completing an invalid frame. -/
  | rxClear (h : ¬s.rxCount.toNat < 3) : Writes s (setRx s 0 0)
  /-- SET_TARGET. -/
  | tgt (k : Channel) (raw : Byte) : Writes s (setTgt s k (govTarget s.cfg raw))
  /-- TICK. -/
  | cur (k : Channel) : Writes s (setCur s k (tickStep s.cfg s.cur[k] s.tgt[k]))
  /-- TICK_ALL. -/
  | allCur : Writes s (setAllCur s (tickAllCur s))
  /-- A valid frame, whole or completed by RX_BYTE. -/
  | frame (s₀ u : State) (hs : s₀ = s ∨ ¬s.rxCount.toNat < 3 ∧ s₀ = setRx s 0 0)
    (hu : u = s₀ ∨ (∃ k raw, u = setTgt s₀ k (govTarget s₀.cfg raw)) ∨ ∃ x, u = setCam s₀ x) :
    Writes s (setSeq u (seqSucc s.seq))

/-- A request written so touches neither the configuration, nor the reset level, nor the host's events, nor the record of
outputs. -/
theorem Writes.keeps {s u : State} (h : Writes s u) :
    u.cfg = s.cfg ∧ u.phase = s.phase ∧ u.port = s.port ∧ u.history = s.history := by
  cases h with
  | frame s₀ u hs hu =>
    obtain rfl | ⟨-, rfl⟩ := hs <;> obtain rfl | ⟨k, raw, rfl⟩ | ⟨x, rfl⟩ := hu <;> exact ⟨rfl, rfl, rfl, rfl⟩
  | _ => exact ⟨rfl, rfl, rfl, rfl⟩

/-- A processed frame ends its request after the writes of a frame, or after none if it is invalid. -/
theorem processFields_form (k : CommandClass) (c v1 v2 : Byte) (sq ck : Nibble) (s : State) :
    ∃ u o, processFields (commandRule k) c v1 v2 sq ck s = finish u o ∧ o.tx.length + o.blink.length ≤ 1 ∧
      (u = s ∨ ∃ w, u = setSeq w (seqSucc s.seq) ∧
        (w = s ∨ (∃ k raw, w = setTgt s k (govTarget s.cfg raw)) ∨ ∃ x, w = setCam s x)) := by
  by_cases h : ck = calcChecksum c v1 v2 sq
  · refine ⟨_, _, processFields_of_valid _ c v1 v2 sq ck s h, ?_, .inr ⟨_, rfl, ?_⟩⟩
    · rcases commandRule_events k c v1 v2 s with hb | ⟨hr, hb⟩
      · unfold frameCompletion
        split <;> simp [hb]
      · simp [frameCompletion, hr, hb]
    · rcases commandRule_state k c v1 v2 s with e | ⟨-, ch, -, e⟩ | ⟨-, -, e⟩
      · exact .inl e
      · exact .inr (.inl ⟨ch, v2, e⟩)
      · exact .inr (.inr ⟨_, e⟩)
  · exact ⟨_, _, processFields_of_invalid _ c v1 v2 sq ck s h, by simp, .inl rfl⟩

/-- Every instruction ends its request in a next state, after writes of one of the forms above, with at most one event. -/
theorem exec_form (i : Instr) (s : State) :
    ∃ u o, exec i s = .next (finish u o) ∧ Writes s u ∧ o.tx.length + o.blink.length ≤ 1 := by
  have channelForm : ∀ (ch : Byte) (effect : Channel → State),
      (∀ k, ∃ u o, effect k = finish u o ∧ Writes s u ∧ o.tx.length + o.blink.length ≤ 1) →
      ∃ u o, onChannel s ch effect = finish u o ∧ Writes s u ∧ o.tx.length + o.blink.length ≤ 1 := by
    intro ch effect h
    cases hc : channelOf ch with
    | none => exact ⟨_, _, onChannel_of_none effect hc, .nothing, by simp⟩
    | some k => rw [onChannel_of_some effect hc]; exact h k
  have frameForm : ∀ (k : CommandClass) (c v1 v2 : Byte) (sq ck : Nibble),
      ∃ u o, Host.Outcome.next (φ := Fault) (ρ := Refusal) (processFields (commandRule k) c v1 v2 sq ck s) =
        .next (finish u o) ∧ Writes s u ∧ o.tx.length + o.blink.length ≤ 1 := by
    intro k c v1 v2 sq ck
    obtain ⟨u, o, e, ho, rfl | ⟨w, rfl, hw⟩⟩ := processFields_form k c v1 v2 sq ck s
    · exact ⟨_, o, congrArg _ e, .nothing, ho⟩
    · exact ⟨_, o, congrArg _ e, .frame s w (.inl rfl) hw, ho⟩
  cases i with
  | encode cmd v1 v2 seq => exact ⟨s, _, rfl, .nothing, by simp⟩
  | decode c v1 v2 sq ck =>
    by_cases h : ck = calcChecksum c v1 v2 sq
    · exact ⟨s, _, if_neg (not_not.mpr h), .nothing, by simp⟩
    · exact ⟨s, _, if_pos h, .nothing, by simp⟩
  | seqCurrent => exact ⟨s, _, rfl, .nothing, by simp⟩
  | seqNext => exact ⟨_, _, rfl, .seq, by simp⟩
  | rxByte b =>
    by_cases h : s.rxCount.toNat < 3
    · exact ⟨_, _, if_pos h, .rxStore b h, by simp⟩
    · obtain ⟨u, o, e, ho, hu⟩ := processFields_form (classify (setRx s 0 0).cfg (byte0 (s.rxBuf ++ b)))
        (byte0 (s.rxBuf ++ b)) (byte1 (s.rxBuf ++ b)) (byte2 (s.rxBuf ++ b)) (seqNibble (s.rxBuf ++ b))
        (checkNibble (s.rxBuf ++ b)) (setRx s 0 0)
      refine ⟨u, o, (if_neg h).trans (congrArg _ e), ?_, ho⟩
      obtain rfl | ⟨w, rfl, hw⟩ := hu
      · exact .rxClear h
      · exact .frame _ w (.inr ⟨h, rfl⟩) hw
  | processFrame c v1 v2 sq ck => exact frameForm (classify s.cfg c) c v1 v2 sq ck
  | setTarget ch raw =>
    obtain ⟨u, o, e, h⟩ := channelForm ch (fun k => respond (setTgt s k (govTarget s.cfg raw)) .ok
      (govTarget s.cfg raw ++ (0 : Byte) ++ govClamp s.cfg raw)) fun k => ⟨_, _, rfl, Writes.tgt k raw, Nat.zero_le 1⟩
    exact ⟨u, o, congrArg _ e, h⟩
  | tick ch =>
    obtain ⟨u, o, e, h⟩ := channelForm ch (fun k => respond (setCur s k (tickStep s.cfg s.cur[k] s.tgt[k])) .ok
      ((tickStep s.cfg s.cur[k] s.tgt[k]).setWidth 32)) fun k => ⟨_, _, rfl, Writes.cur k, Nat.zero_le 1⟩
    exact ⟨u, o, congrArg _ e, h⟩
  | tickAll => exact ⟨_, _, rfl, .allCur, by simp⟩
  | readChannel ch =>
    obtain ⟨u, o, e, h⟩ := channelForm ch (fun k => respond s .ok (s.tgt[k] ++ s.cur[k]))
      fun k => ⟨_, _, rfl, Writes.nothing, Nat.zero_le 1⟩
    exact ⟨u, o, congrArg _ e, h⟩
  | establishConnection c v1 v2 sq ck => exact frameForm .establish c v1 v2 sq ck
  | establishConnectionAlt c v1 v2 sq ck => exact frameForm .establish c v1 v2 sq ck
  | setMotor v1 v2 sq ck => exact frameForm .setMotor _ v1 v2 sq ck
  | setCamera v1 v2 sq ck => exact frameForm .setCamera _ v1 v2 sq ck
  | readSensor v1 v2 sq ck => exact frameForm .readSensor _ v1 v2 sq ck
  | blink v1 v2 sq ck => exact frameForm .blink _ v1 v2 sq ck
  | motorAck v1 v2 sq ck => exact frameForm .unrecognized _ v1 v2 sq ck
  | invalidAck v1 v2 sq ck => exact frameForm .unrecognized _ v1 v2 sq ck
  | unrecognized c v1 v2 sq ck => exact frameForm .unrecognized c v1 v2 sq ck

/-- A step whose event is settled at the inputs. -/
theorem step_of_settled {s : State} {o : Host.Outcome State Fault Refusal} (h : fetch s = .settled o) : step s = o := by
  simp only [step, h]

/-- A step that accepts a request runs the instruction it decodes to, or answers with the error of its word. -/
theorem step_of_accepted {s : State} {w : RequestWord} (h : fetch s = .accepted w) :
    step s = match decodeRequest w with
      | .ok i => exec i s
      | .error e => .next (raiseDecode s e) := by
  simp only [step, h] <;> rfl

/-- Everything a step that answers a next state can have done. -/
theorem step_next_cases {s t : State} (h : step s = .next t) :
    (s.port = [] ∧ t = s) ∨
    (∃ rest, s.port = .resetAssert :: rest ∧ t = assertReset s) ∨
    (s.phase = .inReset ∧ t = dropEvent s) ∨
    (∃ cfg rest, s.phase = .inReset ∧ s.port = .resetRelease cfg :: rest ∧ cfg.wf ∧ t = releaseReset s cfg) ∨
    (∃ w rest u o, s.phase = .serving ∧ s.port = .request w :: rest ∧ s.cfg.wf ∧ t = finish u o ∧ Writes s u ∧
      o.tx.length + o.blink.length ≤ 1) := by
  rcases fetch_cases s with ⟨-, e⟩ | ⟨hp, e⟩ | ⟨rest, hp, e⟩ | ⟨hp, -, e⟩ | ⟨cfg, rest, hp, hr, hw, e⟩ | ⟨r, e⟩ |
    ⟨w, rest, hp, hr, hw, e⟩
  · rw [step_of_settled e] at h; cases h
  · rw [step_of_settled e] at h
    exact .inl ⟨hp, (Host.Outcome.next.inj h).symm⟩
  · rw [step_of_settled e] at h
    exact .inr (.inl ⟨rest, hp, (Host.Outcome.next.inj h).symm⟩)
  · rw [step_of_settled e] at h
    exact .inr (.inr (.inl ⟨hp, (Host.Outcome.next.inj h).symm⟩))
  · rw [step_of_settled e] at h
    exact .inr (.inr (.inr (.inl ⟨cfg, rest, hp, hr, hw, (Host.Outcome.next.inj h).symm⟩)))
  · rw [step_of_settled e] at h; cases h
  · rw [step_of_accepted e] at h
    refine .inr (.inr (.inr (.inr ?_)))
    cases hd : decodeRequest w with
    | ok i =>
      obtain ⟨u, o, hx, hu, ho⟩ := exec_form i s
      rw [hd] at h
      simp only [hx] at h
      exact ⟨w, rest, u, o, hp, hr, hw, (Host.Outcome.next.inj h).symm, hu, ho⟩
    | error d =>
      rw [hd] at h
      refine ⟨w, rest, s, ?_⟩
      cases d <;> exact ⟨_, hp, hr, hw, (Host.Outcome.next.inj h).symm, .nothing, by simp⟩

end Sys2Proof.Machine
end

