-- ==== Sys2Proof/Laws/PerInstr.lean ====
section
/-! SUPPORT. One fact about every instruction as syntax, per constructor: under the reference configuration its encoded word is
of the width, and has the fixed bits, that its row of spec/opcode_table.json gives. -/

namespace Sys2Proof.Laws.TableRow

/-- An encoded word is a request of the given match and mask (the table's rows of 40 bits). -/
def isRequest (w : Encoded) (mask pattern : BitVec 40) : Prop :=
  match w with
  | .request r => r &&& mask = pattern
  | .frame _ => False

/-- An encoded word is a frame of the given match and mask (the table's rows of 32 bits). -/
def isFrame (w : Encoded) (mask pattern : BitVec 32) : Prop :=
  match w with
  | .request _ => False
  | .frame f => f &&& mask = pattern

/-- A word fits its row: the "mask" and "match" of spec/opcode_table.json, row by row. -/
def fitsRow (i : Instr) (w : Encoded) : Prop :=
  match i with
  | .encode .. => isRequest w 0xFF0000000F 0x0100000000
  | .decode .. => isRequest w 0xFF00000000 0x0200000000
  | .seqCurrent => isRequest w 0xFFFFFFFFFF 0x0300000000
  | .seqNext => isRequest w 0xFFFFFFFFFF 0x0400000000
  | .rxByte .. => isRequest w 0xFFFFFFFF00 0x0500000000
  | .processFrame .. => isRequest w 0xFF00000000 0x0600000000
  | .setTarget .. => isRequest w 0xFFFFFF0000 0x0700000000
  | .tick .. => isRequest w 0xFFFFFF00FF 0x0800000000
  | .tickAll => isRequest w 0xFFFFFFFFFF 0x0900000000
  | .readChannel .. => isRequest w 0xFFFFFF00FF 0x0A00000000
  | .establishConnection .. => isFrame w 0xFF000000 0x00000000
  | .establishConnectionAlt .. => isFrame w 0xFF000000 0x10000000
  | .setMotor .. => isFrame w 0xFF000000 0x20000000
  | .setCamera .. => isFrame w 0xFF000000 0x33000000
  | .readSensor .. => isFrame w 0xFF000000 0x40000000
  | .blink .. => isFrame w 0xFF000000 0x80000000
  | .motorAck .. => isFrame w 0xFF000000 0x21000000
  | .invalidAck .. => isFrame w 0xFF000000 0xFF000000
  | .unrecognized .. => isFrame w 0x00000000 0x00000000

/-- A well-formed instruction's word fits the instruction's row. -/
def Statement (i : Instr) : Prop := i.wf Config.reference = true → fitsRow i (encode Config.reference i)

/-- Two words with the same bits are the same word. -/
theorem eq_of_bits {n : Nat} {x y : BitVec n} (h : ∀ i, i < n → x.getLsbD i = y.getLsbD i) : x = y :=
  BitVec.eq_of_getLsbD_eq fun i hi => h i hi

/-- The fixed bits of a frame are its command byte. -/
theorem frameWord_fixed (c v1 v2 : Byte) (sq ck : Nibble) :
    frameWord c v1 v2 sq ck &&& 0xFF000000#32 = frameWord c 0 0 0 0 := by
  apply eq_of_bits
  intro i hi
  rw [BitVec.getLsbD_and, getLsbD_frameWord, getLsbD_frameWord]
  interval_cases i <;> simp

/-- A request masked is its opcode masked and its payload masked. -/
theorem requestWord_masked (opc m : Byte) (p q : BitVec 32) :
    requestWord opc p &&& requestWord m q = requestWord (opc &&& m) (p &&& q) := by
  apply eq_of_bits
  intro i hi
  simp only [BitVec.getLsbD_and, getLsbD_requestWord]
  split <;> rfl

/-- Bytes masked byte by byte. -/
theorem bytesWord_masked (a b c d m n o p : Byte) :
    bytesWord a b c d &&& bytesWord m n o p = bytesWord (a &&& m) (b &&& n) (c &&& o) (d &&& p) := by
  apply eq_of_bits
  intro i hi
  simp only [BitVec.getLsbD_and, getLsbD_bytesWord]
  split
  · rfl
  · split
    · rfl
    · split <;> rfl

/-- ENCODE's reserved bits. -/
theorem frameWord_low (c v1 v2 : Byte) (sq : Nibble) : frameWord c v1 v2 sq 0 &&& 0x0000000F#32 = 0 := by
  apply eq_of_bits
  intro i hi
  rw [BitVec.getLsbD_and, getLsbD_frameWord]
  interval_cases i <;> simp

theorem encode (cmd v1 v2 : Byte) (seq : Nibble) : Statement (.encode cmd v1 v2 seq) := fun _ =>
  (requestWord_masked 0x01 0xFF (frameWord cmd v1 v2 seq 0) 0x0000000F).trans
    (congrArg (requestWord 0x01) (frameWord_low cmd v1 v2 seq))

theorem decode (c v1 v2 : Byte) (sq ck : Nibble) : Statement (.decode c v1 v2 sq ck) := fun _ =>
  (requestWord_masked 0x02 0xFF (frameWord c v1 v2 sq ck) 0).trans (by simp; rfl)

theorem seqCurrent : Statement .seqCurrent := fun _ => rfl

theorem seqNext : Statement .seqNext := fun _ => rfl

theorem rxByte (b : Byte) : Statement (.rxByte b) := fun _ =>
  (requestWord_masked 0x05 0xFF (bytesWord 0 0 0 b) (bytesWord 0xFF 0xFF 0xFF 0)).trans
    (by rw [bytesWord_masked]; simp; rfl)

theorem processFrame (c v1 v2 : Byte) (sq ck : Nibble) : Statement (.processFrame c v1 v2 sq ck) := fun _ =>
  (requestWord_masked 0x06 0xFF (frameWord c v1 v2 sq ck) 0).trans (by simp; rfl)

theorem setTarget (ch raw : Byte) : Statement (.setTarget ch raw) := fun _ =>
  (requestWord_masked 0x07 0xFF (bytesWord 0 0 ch raw) (bytesWord 0xFF 0xFF 0 0)).trans
    (by rw [bytesWord_masked]; simp; rfl)

theorem tick (ch : Byte) : Statement (.tick ch) := fun _ =>
  (requestWord_masked 0x08 0xFF (bytesWord 0 0 ch 0) (bytesWord 0xFF 0xFF 0 0xFF)).trans
    (by rw [bytesWord_masked]; simp; rfl)

theorem tickAll : Statement .tickAll := fun _ => rfl

theorem readChannel (ch : Byte) : Statement (.readChannel ch) := fun _ =>
  (requestWord_masked 0x0A 0xFF (bytesWord 0 0 ch 0) (bytesWord 0xFF 0xFF 0 0xFF)).trans
    (by rw [bytesWord_masked]; simp; rfl)

theorem establishConnection (c v1 v2 : Byte) (sq ck : Nibble) : Statement (.establishConnection c v1 v2 sq ck) := by
  intro h
  obtain rfl : (0x00 : Byte) = c := Option.some.inj (eq_of_beq h)
  exact frameWord_fixed 0x00 v1 v2 sq ck

theorem establishConnectionAlt (c v1 v2 : Byte) (sq ck : Nibble) : Statement (.establishConnectionAlt c v1 v2 sq ck) := by
  intro h
  obtain rfl : c = 0x10 := by
    simp only [Instr.wf, Config.reference, List.contains_cons, List.head?_cons, Bool.and_eq_true] at h
    simp_all
    exact h.1.resolve_left fun e => h.2 e.symm
  exact frameWord_fixed 0x10 v1 v2 sq ck

theorem setMotor (v1 v2 : Byte) (sq ck : Nibble) : Statement (.setMotor v1 v2 sq ck) := fun _ =>
  frameWord_fixed 0x20 v1 v2 sq ck

theorem setCamera (v1 v2 : Byte) (sq ck : Nibble) : Statement (.setCamera v1 v2 sq ck) := fun _ =>
  frameWord_fixed 0x33 v1 v2 sq ck

theorem readSensor (v1 v2 : Byte) (sq ck : Nibble) : Statement (.readSensor v1 v2 sq ck) := fun _ =>
  frameWord_fixed 0x40 v1 v2 sq ck

theorem blink (v1 v2 : Byte) (sq ck : Nibble) : Statement (.blink v1 v2 sq ck) := fun _ =>
  frameWord_fixed 0x80 v1 v2 sq ck

theorem motorAck (v1 v2 : Byte) (sq ck : Nibble) : Statement (.motorAck v1 v2 sq ck) := fun _ =>
  frameWord_fixed 0x21 v1 v2 sq ck

theorem invalidAck (v1 v2 : Byte) (sq ck : Nibble) : Statement (.invalidAck v1 v2 sq ck) := fun _ =>
  frameWord_fixed 0xFF v1 v2 sq ck

theorem unrecognized (c v1 v2 : Byte) (sq ck : Nibble) : Statement (.unrecognized c v1 v2 sq ck) := fun _ =>
  BitVec.and_zero

end Sys2Proof.Laws.TableRow
end

