-- ==== Sys2Proof/Laws/Run.lean ====
section
/-! SUPPORT. Runs of the machine, and lists of instructions, unfolded one step at a time; an invariant that every step keeps holds
along every run. -/

namespace Sys2Proof.Machine

/-- A run's first step. -/
theorem run_succ (n : Nat) (s : State) :
    Host.Core.run Sys2Proof.core (n + 1) s = match step s with
      | .next t => Host.Core.run Sys2Proof.core n t
      | .fault r => .fault r
      | .refused r => .refused r := by
  cases h : step s with
  | next t =>
    have h' : Sys2Proof.core.step s = .next t := h
    simp only [Host.Core.run]
    rw [h']
  | fault r =>
    have h' : Sys2Proof.core.step s = .fault r := h
    simp only [Host.Core.run]
    rw [h']
  | refused r =>
    have h' : Sys2Proof.core.step s = .refused r := h
    simp only [Host.Core.run]
    rw [h']

/-- What every step keeps, every run keeps. -/
theorem run_keeps {P : State → Prop} (hstep : ∀ s t, P s → step s = .next t → P t) :
    ∀ (n : Nat) (s t : State), P s → Host.Core.run Sys2Proof.core n s = .next t → P t := by
  intro n
  induction n with
  | zero =>
    intro s t hs h
    cases h
    exact hs
  | succ n ih =>
    intro s t hs h
    rw [run_succ] at h
    cases hx : step s with
    | next s' => rw [hx] at h; exact ih s' t (hstep s s' hs hx) h
    | fault r => rw [hx] at h; cases h
    | refused r => rw [hx] at h; cases h

/-- A list of instructions whose first answers a next state goes on from there. -/
theorem execAll_cons {i : Instr} {s t : State} (h : exec i s = .next t) (is : List Instr) :
    execAll (i :: is) s = execAll is t := by
  simp only [execAll, h]

/-- A checksum nibble is valid exactly when it is the one computed (40_codec.md R102). -/
theorem checks_iff {c v1 v2 : Byte} {sq ck : Nibble} : checks c v1 v2 sq ck ↔ ck = calcChecksum c v1 v2 sq := by
  unfold checks calcChecksum
  constructor
  · intro h
    apply BitVec.eq_of_toNat_eq
    rw [h, BitVec.toNat_ofNat]
    omega
  · rintro rfl
    rw [BitVec.toNat_ofNat]
    omega

/-- A channel operand is the tick operand of the channel it names. -/
theorem channelOf_eq_some_iff_ofNat {ch : Byte} {k : Channel} : channelOf ch = some k ↔ ch = BitVec.ofNat 8 k.val := by
  rw [channelOf_eq_some, ← BitVec.toNat_inj, BitVec.toNat_ofNat]
  have := k.isLt
  omega

/-- A processed frame leaves every present value. -/
theorem processFields_cur (k : CommandClass) (c v1 v2 : Byte) (sq ck : Nibble) (s : State) :
    (processFields (commandRule k) c v1 v2 sq ck s).cur = s.cur := by
  obtain ⟨u, o, e, -, rfl | ⟨w, rfl, rfl | ⟨j, raw, rfl⟩ | ⟨x, rfl⟩⟩⟩ := processFields_form k c v1 v2 sq ck s <;>
    rw [e] <;> rfl

/-- What an instruction does to a channel's present value: one slew step if it ticks the channel, nothing otherwise. -/
theorem exec_cur {i : Instr} {s t : State} (h : exec i s = .next t) (k : Channel) :
    t.cur[k] = if ticks k i then tickStep s.cfg s.cur[k] s.tgt[k] else s.cur[k] := by
  have frame : ∀ (r : CommandClass) (c v1 v2 : Byte) (sq ck : Nibble) (j : Instr), ticks k j = false →
      (processFields (commandRule r) c v1 v2 sq ck s).cur[k] =
        if ticks k j then tickStep s.cfg s.cur[k] s.tgt[k] else s.cur[k] := fun r c v1 v2 sq ck j hj => by
    rw [processFields_cur, hj]; rfl
  cases i with
  | tick ch =>
    have h' : Host.Outcome.next (onChannel s ch _) = Host.Outcome.next t := h
    cases h'
    cases hc : channelOf ch with
    | none =>
      have hne : ch ≠ BitVec.ofNat 8 k.val := fun e => by rw [channelOf_eq_some_iff_ofNat.mpr e] at hc; cases hc
      rw [onChannel_of_none _ hc]
      simp [ticks, hne, raise]
    | some j =>
      have he := channelOf_eq_some_iff_ofNat.mp hc
      rw [onChannel_of_some _ hc, respond_cur, setCur_cur, getElem_set_channel]
      by_cases hk : k = j
      · subst hk; simp [ticks, he]
      · have hne : ch ≠ BitVec.ofNat 8 k.val := fun e => by
          rw [channelOf_eq_some_iff_ofNat.mpr e] at hc
          exact hk (Option.some.inj hc)
        simp [ticks, hk, hne]
  | tickAll =>
    cases h
    simp only [respond_cur, setAllCur_cur, tickAllCur, perChannel_getElem]
    simp [ticks]
  | setTarget ch raw =>
    cases h
    cases hc : channelOf ch with
    | none => rw [onChannel_of_none _ hc]; simp [ticks, raise]
    | some j => rw [onChannel_of_some _ hc]; simp [ticks]
  | readChannel ch =>
    cases h
    cases hc : channelOf ch with
    | none => rw [onChannel_of_none _ hc]; simp [ticks, raise]
    | some j => rw [onChannel_of_some _ hc]; simp [ticks]
  | decode c v1 v2 sq ck =>
    by_cases hk : ck = calcChecksum c v1 v2 sq
    · have e : exec (.decode c v1 v2 sq ck) s = _ := if_neg (not_not.mpr hk)
      rw [e] at h; cases h; simp [ticks]
    · have e : exec (.decode c v1 v2 sq ck) s = _ := if_pos hk
      rw [e] at h; cases h; simp [ticks, raise]
  | rxByte b =>
    by_cases hr : s.rxCount.toNat < 3
    · have e : exec (.rxByte b) s = _ := if_pos hr
      rw [e] at h; cases h; simp [ticks]
    · have e : exec (.rxByte b) s = _ := if_neg hr
      rw [e] at h; cases h
      simp only [processFrame, processFields_cur]
      simp [ticks]
  | processFrame c v1 v2 sq ck => cases h; simp only [processFrame, processFields_cur]; simp [ticks]
  | establishConnection c v1 v2 sq ck => cases h; exact frame .establish _ _ _ _ _ _ (by simp [ticks])
  | establishConnectionAlt c v1 v2 sq ck => cases h; exact frame .establish _ _ _ _ _ _ (by simp [ticks])
  | setMotor v1 v2 sq ck => cases h; exact frame .setMotor _ _ _ _ _ _ (by simp [ticks])
  | setCamera v1 v2 sq ck => cases h; exact frame .setCamera _ _ _ _ _ _ (by simp [ticks])
  | readSensor v1 v2 sq ck => cases h; exact frame .readSensor _ _ _ _ _ _ (by simp [ticks])
  | blink v1 v2 sq ck => cases h; exact frame .blink _ _ _ _ _ _ (by simp [ticks])
  | motorAck v1 v2 sq ck => cases h; exact frame .unrecognized _ _ _ _ _ _ (by simp [ticks])
  | invalidAck v1 v2 sq ck => cases h; exact frame .unrecognized _ _ _ _ _ _ (by simp [ticks])
  | unrecognized c v1 v2 sq ck => cases h; exact frame .unrecognized _ _ _ _ _ _ (by simp [ticks])
  | encode cmd v1 v2 seq => cases h; simp [ticks]
  | seqCurrent => cases h; simp [ticks]
  | seqNext => cases h; simp [ticks]

end Sys2Proof.Machine
end

