-- ==== Sys2Proof/Machine/Assembler.lean ====
section
/-! DEFINITION. The assembler syntax of 30_encoding.md R79: `MNEMONIC operands`, operands separated by commas, numbers in
decimal or with `0x`; the pseudo-instructions SEND and TICKN and the expression FRAME. A line is a list of characters, and
assembles to the requests it stands for, or is refused. No meaning depends on this file. -/

namespace Sys2Proof.Machine

/-- The tokens of a line. -/
inductive Token where
  | word (cs : List Char)
  | num (n : Nat)
  | comma
  | lparen
  | rparen
  deriving DecidableEq, Repr

/-- An operand: a number, or FRAME(cmd, v1, v2, seq). -/
inductive Operand where
  | num (n : Nat)
  | frame (cmd v1 v2 seq : Nat)
  deriving DecidableEq, Repr

/-- The value of a digit, letters of either case counting from 10. -/
def digitValue (c : Char) : Option Nat :=
  if '0'.toNat ≤ c.toNat ∧ c.toNat ≤ '9'.toNat then some (c.toNat - '0'.toNat)
  else if 'a'.toNat ≤ c.toNat ∧ c.toNat ≤ 'f'.toNat then some (c.toNat - 'a'.toNat + 10)
  else if 'A'.toNat ≤ c.toNat ∧ c.toNat ≤ 'F'.toNat then some (c.toNat - 'A'.toNat + 10)
  else none

/-- The digits' value in a base, after the value `acc` of those before. -/
def digitsValue (base acc : Nat) : List Char → Option Nat
  | [] => some acc
  | c :: cs =>
    match digitValue c with
    | some d => if d < base then digitsValue base (acc * base + d) cs else none
    | none => none

/-- A number in decimal, or in hexadecimal after `0x`. -/
def numeral : List Char → Option Nat
  | [] => none
  | ['0', 'x'] => none
  | '0' :: 'x' :: ds => digitsValue 16 0 ds
  | ds => digitsValue 10 0 ds

/-- The token spelled by a run of characters: a number where it starts with a decimal digit, else a word. -/
def wordToken : List Char → Option (List Token)
  | [] => some []
  | c :: cs =>
    if '0'.toNat ≤ c.toNat ∧ c.toNat ≤ '9'.toNat then (numeral (c :: cs)).map fun n => [.num n]
    else some [.word (c :: cs)]

/-- The tokens of a line, `run` being the characters of the word under way. -/
def tokens (run : List Char) : List Char → Option (List Token)
  | [] => wordToken run
  | c :: cs =>
    let cut : List Token → Option (List Token) := fun sep => do
      let t ← wordToken run
      let rest ← tokens [] cs
      return t ++ sep ++ rest
    if c = ' ' then cut []
    else if c = ',' then cut [.comma]
    else if c = '(' then cut [.lparen]
    else if c = ')' then cut [.rparen]
    else tokens (run ++ [c]) cs

/-- The word FRAME. -/
def frameName : List Char := ['F', 'R', 'A', 'M', 'E']

/-- The operands of a line, in order. -/
def operands : List Token → Option (List Operand)
  | [] => some []
  | [.num n] => some [.num n]
  | .num n :: .comma :: t :: rest => (operands (t :: rest)).map (Operand.num n :: ·)
  | [.word w, .lparen, .num a, .comma, .num b, .comma, .num c, .comma, .num d, .rparen] =>
    if w = frameName then some [.frame a b c d] else none
  | _ => none

/-- A number as a byte, refused where it does not fit. -/
def asByte (n : Nat) : Option Byte := if n ≤ 255 then some (BitVec.ofNat 8 n) else none

/-- A number as a nibble, refused where it does not fit. -/
def asNibble (n : Nat) : Option Nibble := if n ≤ 15 then some (BitVec.ofNat 4 n) else none

/-- The frame word of four byte operands or of one FRAME expression. -/
def frameOfBytes : List Operand → Option FrameWord
  | [.num a, .num b, .num c, .num d] => do return (← asByte a) ++ (← asByte b) ++ (← asByte c) ++ (← asByte d)
  | [.frame a b c d] => do
    let cmd ← asByte a
    let v1 ← asByte b
    let v2 ← asByte c
    let seq ← asNibble d
    return frameWord cmd v1 v2 seq (calcChecksum cmd v1 v2 seq)
  | _ => none

/-- A frame operand of DECODE and PROCESS_FRAME: four bytes, a FRAME expression, or one 32-bit frame word. -/
def frameOperand : List Operand → Option FrameWord
  | [.num w] => if w < 2 ^ 32 then some (BitVec.ofNat 32 w) else none
  | os => frameOfBytes os

/-- The instructions that a mnemonic with its operands stands for (30_encoding.md R79). -/
def lineInstrs (mnemonic : List Char) (os : List Operand) : Option (List Instr) :=
  if mnemonic = ['E', 'N', 'C', 'O', 'D', 'E'] then
    match os with
    | [.num c, .num a, .num b, .num q] => do
      return [.encode (← asByte c) (← asByte a) (← asByte b) (← asNibble q)]
    | _ => none
  else if mnemonic = ['D', 'E', 'C', 'O', 'D', 'E'] then
    (frameOperand os).map fun f => [requestInstr .decode f]
  else if mnemonic = ['P', 'R', 'O', 'C', 'E', 'S', 'S', '_', 'F', 'R', 'A', 'M', 'E'] then
    (frameOperand os).map fun f => [requestInstr .processFrame f]
  else if mnemonic = ['S', 'E', 'N', 'D'] then
    (frameOfBytes os).map fun f => [.rxByte (byte0 f), .rxByte (byte1 f), .rxByte (byte2 f), .rxByte (byte3 f)]
  else if mnemonic = ['S', 'E', 'Q', '_', 'C', 'U', 'R', 'R', 'E', 'N', 'T'] then
    if os = [] then some [.seqCurrent] else none
  else if mnemonic = ['S', 'E', 'Q', '_', 'N', 'E', 'X', 'T'] then
    if os = [] then some [.seqNext] else none
  else if mnemonic = ['T', 'I', 'C', 'K', '_', 'A', 'L', 'L'] then
    if os = [] then some [.tickAll] else none
  else
    match os with
    | [.num a] => do
      let b ← asByte a
      if mnemonic = ['R', 'X', '_', 'B', 'Y', 'T', 'E'] then return [.rxByte b]
      else if mnemonic = ['T', 'I', 'C', 'K'] then return [.tick b]
      else if mnemonic = ['R', 'E', 'A', 'D', '_', 'C', 'H', 'A', 'N', 'N', 'E', 'L'] then return [.readChannel b]
      else none
    | [.num a, .num n] => do
      let b ← asByte a
      if mnemonic = ['S', 'E', 'T', '_', 'T', 'A', 'R', 'G', 'E', 'T'] then return [.setTarget b (← asByte n)]
      else if mnemonic = ['T', 'I', 'C', 'K', 'N'] then return List.replicate n (.tick b)
      else none
    | _ => none

/-- The request word of an instruction, where it is a request. -/
def requestWordOf (i : Instr) : Option RequestWord :=
  match encode Config.reference i with
  | .request w => some w
  | .frame _ => none

/-- The request words that a line of assembler text stands for (30_encoding.md R79). -/
def assemble (line : List Char) : Option (List RequestWord) := do
  match ← tokens [] line with
  | .word m :: rest => (← lineInstrs m (← operands rest)).mapM requestWordOf
  | _ => none

end Sys2Proof.Machine
end

