-- ==== Sys2Proof/Tests/Slice0.lean ====
section
/-! SUPPORT. The model's own tests: the well-formedness checks refuse what they should, every row's word decodes to what it stands
for, one step of every instruction gives what the spec's test vectors say, and every statement with hypotheses has a state and
operands that meet them. Expected values come from the cited tables of spec/, never from the model. -/

namespace Sys2Proof.Tests

open Sys2Proof Sys2Proof.Machine

/-! ### Well-formedness (00_scope.md R7, R8) -/

theorem test_reference_config_wf : Config.reference.wf := by decide

theorem test_w1_band_below_zero : ¬{ Config.reference with rawCenter := 99 }.bandFitsByte := by decide

theorem test_w1_band_above_byte : ¬{ Config.reference with rawCenter := 156 }.bandFitsByte := by decide

theorem test_w2_target_below_esc : ¬{ Config.reference with escMinUs := 1101 }.targetsInEscRange := by decide

theorem test_w2_target_above_esc : ¬{ Config.reference with escMaxUs := 1899 }.targetsInEscRange := by decide

theorem test_w3_step_zero : ¬{ Config.reference with stepUs := 0 }.stepPositive := by decide

theorem test_w4_denominator_zero : ¬{ Config.reference with scaleDen := 0 }.denominatorPositive := by decide

theorem test_w5_esc_max_too_wide : ¬{ Config.reference with escMaxUs := 65536 }.fitsRegister := by decide

theorem test_w6_codes_equal : ¬{ Config.reference with opcBlink := 0x20 }.opcodesDistinct := by decide

theorem test_w6_code_in_establish_set : ¬{ Config.reference with opcBlink := 0x10 }.opcodesDistinct := by decide

theorem test_field_out_of_range : ¬{ Config.reference with deadbandUs := 65536 }.fieldsInRange := by decide

theorem test_wf_refuses_each_broken_config :
    ¬{ Config.reference with rawCenter := 99 }.wf ∧ ¬{ Config.reference with escMinUs := 1101 }.wf ∧
      ¬{ Config.reference with stepUs := 0 }.wf ∧ ¬{ Config.reference with scaleDen := 0 }.wf ∧
      ¬{ Config.reference with escMaxUs := 65536 }.wf ∧ ¬{ Config.reference with opcBlink := 0x20 }.wf ∧
      ¬{ Config.reference with deadbandUs := 65536 }.wf :=
  ⟨by decide, by decide, by decide, by decide, by decide, by decide, by decide⟩

theorem test_establish_byte_must_be_first : Instr.wf Config.reference (.establishConnection 0x10 0 0 0 0) = false := by decide

theorem test_establish_alt_byte_must_be_another :
    Instr.wf Config.reference (.establishConnectionAlt 0x00 0 0 0 0) = false ∧
      Instr.wf Config.reference (.establishConnectionAlt 0x20 0 0 0 0) = false := by decide

theorem test_unrecognized_byte_must_be_none :
    Instr.wf Config.reference (.unrecognized 0x20 0 0 0 0) = false ∧
      Instr.wf Config.reference (.unrecognized 0x00 0 0 0 0) = false ∧
      Instr.wf Config.reference (.unrecognized 0xFF 0 0 0 0) = false := by decide

/-! ### Decoding: words written out from 30_encoding.md R72 (requests) and R80, R81 (frames), field by field -/

/-- Opcode 01, cmd 12, v1 34, v2 56, seq 7, reserved 0. -/
theorem test_decode_encode : decodeTableWord 40 0x0112345670 = some (.encode 0x12 0x34 0x56 7) := by decide

/-- Opcode 02, frame 12 34 56 7D: the sequence is 7, the checksum D. -/
theorem test_decode_decode : decodeTableWord 40 0x021234567D = some (.decode 0x12 0x34 0x56 7 0xD) := by decide

theorem test_decode_seqCurrent : decodeTableWord 40 0x0300000000 = some .seqCurrent := by decide

theorem test_decode_seqNext : decodeTableWord 40 0x0400000000 = some .seqNext := by decide

theorem test_decode_rxByte : decodeTableWord 40 0x050000009C = some (.rxByte 0x9C) := by decide

/-- Opcode 06, frame 20 06 64 07. -/
theorem test_decode_processFrame : decodeTableWord 40 0x0620066407 = some (.processFrame 0x20 0x06 0x64 0 7) := by decide

/-- Opcode 07, ch in P[15:8], raw in P[7:0]. -/
theorem test_decode_setTarget : decodeTableWord 40 0x07000002FF = some (.setTarget 2 0xFF) := by decide

/-- Opcode 08, ch in P[15:8]. -/
theorem test_decode_tick : decodeTableWord 40 0x0800000500 = some (.tick 5) := by decide

theorem test_decode_tickAll : decodeTableWord 40 0x0900000000 = some .tickAll := by decide

/-- Opcode 0A, ch in P[15:8]. -/
theorem test_decode_readChannel : decodeTableWord 40 0x0A0000FF00 = some (.readChannel 0xFF) := by decide

theorem test_decode_establishConnection :
    decodeTableWord 32 0x0055AA31 = some (.establishConnection 0x00 0x55 0xAA 3 1) := by decide

theorem test_decode_establishConnectionAlt :
    decodeTableWord 32 0x1055AA36 = some (.establishConnectionAlt 0x10 0x55 0xAA 3 6) := by decide

theorem test_decode_setMotor : decodeTableWord 32 0x20056492 = some (.setMotor 5 0x64 9 2) := by decide

theorem test_decode_setCamera : decodeTableWord 32 0x33079905 = some (.setCamera 7 0x99 0 5) := by decide

theorem test_decode_readSensor : decodeTableWord 32 0x40010003 = some (.readSensor 1 0 0 3) := by decide

theorem test_decode_blink : decodeTableWord 32 0x80120A06 = some (.blink 0x12 0x0A 0 6) := by decide

theorem test_decode_motorAck : decodeTableWord 32 0x2102E40B = some (.motorAck 2 0xE4 0 0xB) := by decide

theorem test_decode_invalidAck : decodeTableWord 32 0xFF062001 = some (.invalidAck 6 0x20 0 1) := by decide

theorem test_decode_unrecognized : decodeTableWord 32 0x99000010 = some (.unrecognized 0x99 0 0 1 0) := by decide

/-- 30_encoding.md R77: an unassigned opcode, whatever the payload. -/
theorem test_decode_unassigned_opcode :
    decodeRequest 0x0000000000 = .error .unassignedOpcode ∧ decodeRequest 0x0B00000000 = .error .unassignedOpcode ∧
      decodeRequest 0xFFFFFFFFFF = .error .unassignedOpcode := by decide

/-- 30_encoding.md R72: one 1 at an end of each opcode's reserved-zero mask. -/
theorem test_decode_reserved_bits :
    decodeRequest 0x0100000008 = .error .reservedBits ∧ decodeRequest 0x0380000000 = .error .reservedBits ∧
      decodeRequest 0x0400000001 = .error .reservedBits ∧ decodeRequest 0x0500000100 = .error .reservedBits ∧
      decodeRequest 0x0700010200 = .error .reservedBits ∧ decodeRequest 0x0800000280 = .error .reservedBits ∧
      decodeRequest 0x0900000001 = .error .reservedBits ∧ decodeRequest 0x0A00010000 = .error .reservedBits := by decide

/-! ### One step of each instruction (95_test_vectors.md part 2) -/

/-- The completion that a step gives at the output ports. -/
def answer (o : Host.Outcome State Fault Refusal) : Option Completion :=
  match o with
  | .next t => t.history.head?
  | .fault _ => none
  | .refused _ => none

/-- What a step leaves in the state, seen through `f`. -/
def leaves {α : Type} (f : State → α) (o : Host.Outcome State Fault Refusal) : Option α :=
  match o with
  | .next t => some (f t)
  | .fault _ => none
  | .refused _ => none

/-- What the machine does with a request word it has accepted in a state (`step_of_accepted` of Laws/Exec.lean). -/
def ask (s : State) (w : Nat) : Host.Outcome State Fault Refusal :=
  match decodeRequest (BitVec.ofNat 40 w) with
  | .ok i => exec i s
  | .error e => .next (raiseDecode s e)

/-- What the machine does with a frame word received whole in a state. -/
def receive (s : State) (w : Nat) : Host.Outcome State Fault Refusal := exec (decodeFrame s.cfg (BitVec.ofNat 32 w)) s

/-- The reset state with one channel's registers set. -/
def channelAt (k : Channel) (cur tgt : Pulse) : State := setTgt (setCur State.reset k cur) k tgt

/-- A request word and a frame word, presented where the machine takes its next instruction, run as the first instruction after reset. -/
theorem test_step_runs_the_word_presented :
    answer (step (State.reset.withFetchWord 40 0x0112345670)) = some ⟨.ok, 0x1234567D, [], []⟩ ∧
      answer (step (State.reset.withFetchWord 32 0x80000A02)) = some ⟨.ok, 0, [], [10]⟩ := by decide

theorem test_encode_sums :
    answer (ask State.reset 0x0112345670) = some ⟨.ok, 0x1234567D, [], []⟩ := by decide

theorem test_encode_highest_operands :
    answer (ask State.reset 0x01FFFFFFF0) = some ⟨.ok, 0xFFFFFFF0, [], []⟩ := by decide

theorem test_decode_accepts : answer (ask State.reset 0x021234567D) = some ⟨.ok, 0x12345670, [], []⟩ := by decide

/-- 95_test_vectors.md 2.2: received 15, expected 0. -/
theorem test_decode_rejects : answer (ask State.reset 0x02FFFFFFFF) = some ⟨.errChecksum, 0x000000F0, [], []⟩ := by decide

theorem test_seqCurrent_reads :
    answer (ask { State.reset with seq := 7 } 0x0300000000) = some ⟨.ok, 7, [], []⟩ ∧
      leaves State.seq (ask { State.reset with seq := 7 } 0x0300000000) = some 7 := by decide

theorem test_seqNext_wraps :
    answer (ask { State.reset with seq := 15 } 0x0400000000) = some ⟨.ok, 15, [], []⟩ ∧
      leaves State.seq (ask { State.reset with seq := 15 } 0x0400000000) = some 0 := by decide

/-- 10_state.md R29: byte 1 lies at bits 15..8. -/
theorem test_rxByte_stores :
    answer (ask { State.reset with rxCount := 1, rxBuf := 0x200000 } 0x0500000001) = some ⟨.ok, 2, [], []⟩ ∧
      leaves State.rxBuf (ask { State.reset with rxCount := 1, rxBuf := 0x200000 } 0x0500000001) = some 0x200100 := by decide

/-- 95_test_vectors.md P2: the fourth byte of 00 55 AA 01. -/
theorem test_rxByte_completes :
    answer (ask { State.reset with rxCount := 3, rxBuf := 0x0055AA } 0x0500000001) =
        some ⟨.okTx, 0x0055AA01, [0x0055AA01], []⟩ ∧
      leaves State.rxCount (ask { State.reset with rxCount := 3, rxBuf := 0x0055AA } 0x0500000001) = some 0 ∧
      leaves State.rxBuf (ask { State.reset with rxCount := 3, rxBuf := 0x0055AA } 0x0500000001) = some 0 := by decide

/-- 95_test_vectors.md 2.4: the reply is stamped 15 and `SEQ` wraps. -/
theorem test_processFrame_replies :
    answer (ask { State.reset with seq := 15 } 0x0699000009) = some ⟨.okTx, 0xFF0099F5, [0xFF0099F5], []⟩ ∧
      leaves State.seq (ask { State.reset with seq := 15 } 0x0699000009) = some 0 := by decide

/-- 95_test_vectors.md 2.8: bad checksum before bad channel. -/
theorem test_processFrame_drops :
    answer (ask State.reset 0x0620066407) = some ⟨.errChecksum, 0x00000076, [], []⟩ ∧
      leaves State.seq (ask State.reset 0x0620066407) = some 0 := by decide

/-- 95_test_vectors.md 2.6: the deadband's inner and outer neighbours. -/
theorem test_setTarget_deadband :
    answer (ask State.reset 0x0700000086) = some ⟨.ok, 0x05DC0086, [], []⟩ ∧
      answer (ask State.reset 0x0700000087) = some ⟨.ok, 0x05F80087, [], []⟩ := by decide

/-- 95_test_vectors.md 2.6: saturation, on channel 2. -/
theorem test_setTarget_saturates :
    answer (ask State.reset 0x07000002FF) = some ⟨.ok, 0x076C00E4, [], []⟩ ∧
      leaves State.tgt (ask State.reset 0x07000002FF) = some #v[1500, 1500, 1900, 1500, 1500, 1500] ∧
      leaves State.cur (ask State.reset 0x07000002FF) = some State.reset.cur := by decide

/-- 95_test_vectors.md 2.7: one step beyond the step limit and one at it. -/
theorem test_tick_limits :
    answer (ask (channelAt 0 1500 1521) 0x0800000000) = some ⟨.ok, 0x5F0, [], []⟩ ∧
      answer (ask (channelAt 0 1500 1520) 0x0800000000) = some ⟨.ok, 0x5F0, [], []⟩ ∧
      answer (ask (channelAt 0 1500 1519) 0x0800000000) = some ⟨.ok, 0x5EF, [], []⟩ := by decide

/-- 95_test_vectors.md 2.7: a downward step, first of the ramp from 1510 to 1100. -/
theorem test_tick_down :
    leaves State.cur (ask (channelAt 1 1510 1100) 0x0800000100) = some #v[1500, 1490, 1500, 1500, 1500, 1500] := by decide

theorem test_tickAll_moves :
    answer (ask (channelAt 2 1500 1900) 0x0900000000) = some ⟨.ok, 4, [], []⟩ ∧
      leaves State.cur (ask (channelAt 2 1500 1900) 0x0900000000) = some #v[1500, 1500, 1520, 1500, 1500, 1500] := by decide

/-- 95_test_vectors.md P5: an inverted output is reflected, `CUR` is not. -/
theorem test_tickAll_inverted_output :
    leaves (fun t => (t.cur, escOut t 1)) (ask { channelAt 1 1440 1788 with
      cfg := { Config.reference with dir := #v[false, true, false, false, false, false] } } 0x0900000000) =
      some (#v[1500, 1460, 1500, 1500, 1500, 1500], 1540) := by decide

/-- 95_test_vectors.md P3: target and present value. -/
theorem test_readChannel_reads :
    answer (ask (channelAt 3 1520 1788) 0x0A00000300) = some ⟨.ok, 0x06FC05F0, [], []⟩ := by decide

/-- 95_test_vectors.md 2.8: the whole channel byte counts. -/
theorem test_readChannel_bad_channel :
    answer (ask State.reset 0x0A0000FF00) = some ⟨.errChannel, 0, [], []⟩ := by decide

theorem test_establish_good_magic :
    answer (receive State.reset 0x0055AA01) = some ⟨.okTx, 0x0055AA01, [0x0055AA01], []⟩ := by decide

theorem test_establish_wrong_magic :
    answer (receive State.reset 0x0055AB06) = some ⟨.ok, 0, [], []⟩ ∧
      leaves State.seq (receive State.reset 0x0055AB06) = some 1 := by decide

theorem test_establishAlt_echoes_its_byte :
    answer (receive State.reset 0x1055AA36) = some ⟨.okTx, 0x1055AA01, [0x1055AA01], []⟩ := by decide

theorem test_establishAlt_swapped_magic : answer (receive State.reset 0x10AA5507) = some ⟨.ok, 0, [], []⟩ := by decide

theorem test_setMotor_acks :
    answer (receive State.reset 0x20056492) = some ⟨.okTx, 0x21056404, [0x21056404], []⟩ ∧
      leaves State.tgt (receive State.reset 0x20056492) = some #v[1500, 1500, 1500, 1500, 1500, 1388] := by decide

theorem test_setMotor_bad_channel :
    answer (receive State.reset 0x20066406) = some ⟨.okTx, 0xFF062001, [0xFF062001], []⟩ ∧
      leaves State.tgt (receive State.reset 0x20066406) = some State.reset.tgt := by decide

theorem test_setCamera_selects : leaves State.camSel (receive State.reset 0x33079905) = some 7 := by decide

theorem test_setCamera_ignores_eight :
    answer (receive { State.reset with camSel := 5 } 0x3308000B) = some ⟨.ok, 0, [], []⟩ ∧
      leaves State.camSel (receive { State.reset with camSel := 5 } 0x3308000B) = some 5 := by decide

theorem test_readSensor_error_ack :
    answer (receive State.reset 0x40010003) = some ⟨.okTx, 0xFF014002, [0xFF014002], []⟩ := by decide

theorem test_blink_duration : answer (receive State.reset 0x80000A02) = some ⟨.ok, 0, [], [10]⟩ := by decide

theorem test_motorAck_inbound :
    answer (receive State.reset 0x2102E40B) = some ⟨.okTx, 0xFF02210A, [0xFF02210A], []⟩ := by decide

theorem test_invalidAck_inbound :
    answer (receive State.reset 0xFF062001) = some ⟨.okTx, 0xFF06FF0C, [0xFF06FF0C], []⟩ := by decide

theorem test_unrecognized_command :
    answer (receive State.reset 0x99000010) = some ⟨.okTx, 0xFF00990C, [0xFF00990C], []⟩ := by decide

/-- 60_exceptions.md R208: the opcode is checked before the reserved bits, these before the channel. -/
theorem test_error_priority :
    answer (ask State.reset 0xFFFFFFFFFF) = some ⟨.errOpcode, 0, [], []⟩ ∧
      answer (ask State.reset 0x07FFFF06FF) = some ⟨.errReserved, 0, [], []⟩ ∧
      answer (ask State.reset 0x07000006FF) = some ⟨.errChannel, 0, [], []⟩ := by decide

/-- 30_encoding.md R74: the status codes stand in bits 39..32 of the response word. -/
theorem test_response_word :
    responseWord ⟨.errChecksum, 0x21, [], []⟩ = 0x1000000021 ∧ responseWord ⟨.okTx, 0x2102E40B, [], []⟩ = 0x012102E40B := by
  decide

/-- 70_reset_and_hazards.md R230: while `RESET` is asserted a request is not accepted. -/
theorem test_reset_drops_request :
    leaves (fun t => (t.seq, t.history)) (step { State.reset with
      seq := 5, phase := .inReset, port := [.request 0x0400000000] }) = some (5, []) := by decide

/-! ### The assembler (30_encoding.md R79, with the words of 95_test_vectors.md part 3) -/

theorem test_assemble_encode : assemble "ENCODE 0x20, 3, 200, 0".toList = some [0x012003C800] := by decide

theorem test_assemble_frame :
    assemble "PROCESS_FRAME FRAME(0x20, 2, 0xFF, 0)".toList = some [0x062002FF01] := by decide

theorem test_assemble_send :
    assemble "SEND 0x00, 0x55, 0xAA, 1".toList = some [0x0500000000, 0x0500000055, 0x05000000AA, 0x0500000001] := by decide

theorem test_assemble_refuses : assemble "TICK 256".toList = none ∧ assemble "HALT".toList = none := by decide

/-! ### Witnesses: a state and operands that meet the hypotheses of each statement, at the ends of its clauses -/

/-- The reset state about to take a request word. -/
def taking (w : RequestWord) : State := presentRequest State.reset w

theorem test_witness_serves (w : RequestWord) : Serves (taking w) w [] :=
  ⟨rfl, test_reference_config_wf, rfl⟩

theorem test_witness_ResetReleaseGivesResetValues :
    ({ State.reset with phase := .inReset, port := [.request 0x0400000000] } : State).phase = .inReset ∧
      Config.reference.wf ∧ { Config.reference with centerUs := 65535, rawHalfBand := 0, escMaxUs := 65535 }.wf := by decide

theorem test_witness_ResetAssertStopsService :
    ({ State.reset with port := [.resetAssert] } : State).port = .resetAssert :: [] ∧
      ({ State.reset with phase := .beforeReset, port := [.resetAssert] } : State).port = .resetAssert :: [] := by decide

theorem test_witness_EscOutAtResetIsCentre : { Config.reference with dir := #v[true, true, true, true, true, true] }.wf := by decide

/-- The six directions reversed, and the pulse at the top of the register. -/
theorem test_witness_InvariantHoldsAtReset :
    { Config.reference with dir := #v[true, true, true, true, true, true] }.wf ∧
      { Config.reference with centerUs := 65535, rawHalfBand := 0, escMaxUs := 65535 }.wf := by decide

/-- Reset, the ends of the interval, and a partly received frame. -/
theorem test_witness_StepKeepsInvariant :
    Inv (taking 0x08000002FF) ∧ Inv (channelAt 5 1100 1900) ∧ Inv { State.reset with rxCount := 2, rxBuf := 0x20FF00 } ∧
      leaves State.seq (step (taking 0x0400000000)) = some 1 :=
  ⟨by decide, by decide, by decide, by decide⟩

/-- The ends of the interval, with the channel's direction either way. -/
theorem test_witness_EscOutReflectsAboutCentre :
    Inv (channelAt 5 1100 1900) ∧
      Inv { channelAt 5 1900 1100 with cfg := { Config.reference with dir := #v[false, false, false, false, false, true] } } ∧
      (channelAt 5 1100 1900).cfg.dir[(5 : Channel)] = false :=
  ⟨by decide, by decide, by decide⟩

theorem test_witness_ReachableOutputsInEscRange :
    leaves State.tgt (Host.Core.run Sys2Proof.core 1 { State.resetWith Config.reference with port := [.request 0x07000005FF] }) =
      some #v[1500, 1500, 1500, 1500, 1500, 1900] := by decide

theorem test_witness_IdleStateHeld : State.reset.phase ≠ .beforeReset ∧ State.reset.port = [] := by decide

theorem test_witness_IllFormedConfigurationRefused :
    ¬{ Config.reference with stepUs := 0 }.wf ∧
      ({ State.reset with phase := .inReset, port := [.resetRelease { Config.reference with stepUs := 0 }] } : State).phase = .inReset ∧
      ({ State.reset with cfg := { Config.reference with stepUs := 0 }, port := [.request 0] } : State).phase = .serving ∧
      ({ State.reset with port := [.resetRelease Config.reference] } : State).phase = .serving := by decide

theorem test_witness_NoStepBeforeFirstReset :
    ({ State.reset with phase := .beforeReset, port := [.request 0x0400000000] } : State).phase = .beforeReset ∧
      ∀ rest, ({ State.reset with phase := .beforeReset, port := [.request 0x0400000000] } : State).port ≠ .resetAssert :: rest :=
  ⟨rfl, nofun⟩

/-- Both cases of the conclusion: a request, and a release that changes the configuration. -/
theorem test_witness_ConfigurationFixedBetweenResets :
    leaves State.cfg (step (taking 0x0400000000)) = some Config.reference ∧
      leaves (fun t => t.cfg.stepUs) (step { State.reset with
        phase := .inReset, port := [.resetRelease { Config.reference with stepUs := 7 }] }) = some 7 := by decide

/-- The least and the greatest word. -/
theorem test_witness_EveryRequestAnsweredOnce : Serves (taking 0) 0 [] ∧ Serves (taking 0xFFFFFFFFFF) 0xFFFFFFFFFF [] :=
  ⟨test_witness_serves _, test_witness_serves _⟩

theorem test_witness_StepRunsDecodedRequest :
    decodeRequest 0x0400000000 = .ok .seqNext ∧ Serves (taking 0x0400000000) 0x0400000000 [] :=
  ⟨by decide, test_witness_serves _⟩

theorem test_witness_ProcessFrameRunsWireCommand :
    Serves (taking (0x06#8 ++ 0x2002FF01#32)) (0x06#8 ++ 0x2002FF01#32) [] := test_witness_serves _

/-- Opcodes at the ends of the unassigned ranges, and one bit at an end of each reserved-zero mask; the latter are the hypotheses of
`reservedBitsRejected`, which the statements about single requests share. -/
theorem test_witness_IllegalWordsRejected :
    ((opcodeOf 0x00FFFFFFFF).toNat = 0 ∧ 0x0B ≤ (opcodeOf 0x0B00000000).toNat ∧ 0x0B ≤ (opcodeOf 0xFF00000000).toNat) ∧
      (payloadOf 0x0100000008 &&& 0x0000000F ≠ 0 ∧ payloadOf 0x0380000000 &&& 0xFFFFFFFF ≠ 0 ∧
        payloadOf 0x0400000001 &&& 0xFFFFFFFF ≠ 0 ∧ payloadOf 0x0500000100 &&& 0xFFFFFF00 ≠ 0 ∧
        payloadOf 0x0700010000 &&& 0xFFFF0000 ≠ 0 ∧ payloadOf 0x0800000080 &&& 0xFFFF00FF ≠ 0 ∧
        payloadOf 0x0900000001 &&& 0xFFFFFFFF ≠ 0 ∧ payloadOf 0x0A00010000 &&& 0xFFFF00FF ≠ 0) := by decide

/-- A step on a presented word that ends with an error, all hypotheses together. -/
theorem test_witness_ErrorsWriteNoState :
    Serves (taking 0x0B00000000) 0x0B00000000 [] ∧
      leaves (fun t => t.history) (step (taking 0x0B00000000)) = some (⟨.errOpcode, 0, [], []⟩ :: (taking 0x0B00000000).history) :=
  ⟨test_witness_serves _, by decide⟩

/-- Each status of the statement, with both requests and the reception that can raise ERR_CHECKSUM. -/
theorem test_witness_ErrorsWriteNoState_statuses :
    (answer (ask State.reset 0x0B00000000)).map Completion.status = some .errOpcode ∧
      (answer (ask State.reset 0x0700010000)).map Completion.status = some .errReserved ∧
      (answer (ask State.reset 0x0800000600)).map Completion.status = some .errChannel ∧
      (answer (ask State.reset 0x022002FF02)).map Completion.status = some .errChecksum ∧
      (answer (ask State.reset 0x062002FF02)).map Completion.status = some .errChecksum ∧
      (answer (ask { State.reset with rxCount := 3, rxBuf := 0x2002FF } 0x0500000002)).map Completion.status =
        some .errChecksum := by decide

theorem test_witness_ReadOnlyRequestsWriteNothing :
    leaves State.seq (exec (.encode 1 2 3 4) State.reset) = some 0 ∧ leaves State.seq (exec (.decode 1 2 3 4 5) State.reset) = some 0 ∧
      leaves State.seq (exec .seqCurrent State.reset) = some 0 ∧ leaves State.seq (exec (.readChannel 5) State.reset) = some 0 ∧
      leaves State.seq (exec (.readChannel 6) State.reset) = some 0 := by decide

/-- One well-formed term of each row whose command byte is an operand. -/
theorem test_witness_DecodeOfEncode :
    Config.reference.opcodesDistinct ∧ Instr.wf Config.reference (.establishConnection 0x00 0xFF 0xFF 15 15) = true ∧
      Instr.wf Config.reference (.establishConnectionAlt 0x10 0xFF 0xFF 15 15) = true ∧
      Instr.wf Config.reference (.unrecognized 0xFE 0 0 0 0) = true ∧ Instr.wf Config.reference (.blink 0 0 0 0) = true := by decide

theorem test_witness_EncodeOfDecode :
    decode Config.reference (.request 0x0A0000FF00) = .ok (.readChannel 0xFF) ∧
      decode Config.reference (.frame 0xFE000000) = .ok (.unrecognized 0xFE 0 0 0 0) := by decide

theorem test_witness_ChecksumIgnoresHighNibbles :
    (0xA0#8).toNat % 16 = (0x20#8).toNat % 16 ∧ (0xFF#8).toNat % 16 = (0x0F#8).toNat % 16 := by decide

/-- 95_test_vectors.md 2.2: a match and a mismatch. -/
theorem test_witness_DecodeChecksFrame : checks 0x20 0x02 0xFF 0 1 ∧ (2 : Nibble) ≠ 1 := by decide

/-- Valid frames of 95_test_vectors.md 2.2, the least among them. -/
theorem test_witness_ChecksumDetection : frameValid 0x2002FF01 ∧ frameValid 0xFFFFFFF0 ∧ frameValid 0x00000000 := by decide

theorem test_witness_CodecRoundTrip :
    answer (exec (.encode 0x20 3 200 0) State.reset) = some ⟨.ok, 0x2003C801, [], []⟩ ∧
      answer (exec (.decode 0x20 3 200 0 1) State.reset) = some ⟨.ok, 0x2003C800, [], []⟩ := by decide

/-- SEQ_NEXT, a valid frame, the RX_BYTE that completes one, two instructions that do not advance, and a release of reset. -/
theorem test_witness_OnlyValidFramesAndSeqNextAdvance :
    leaves State.seq (exec .seqNext State.reset) = some 1 ∧ leaves State.seq (exec (.setMotor 2 0xFF 0 1) State.reset) = some 1 ∧
      leaves State.seq (exec (.rxByte 1) { State.reset with rxCount := 3, rxBuf := 0x2002FF }) = some 1 ∧
      leaves State.seq (exec (.setMotor 2 0xFF 0 2) State.reset) = some 0 ∧
      leaves State.seq (exec (.rxByte 1) { State.reset with rxCount := 2, rxBuf := 0x200200 }) = some 0 ∧
      leaves State.seq (step { State.reset with seq := 5, phase := .inReset, port := [.resetRelease Config.reference] }) = some 0 := by
  decide

/-- 95_test_vectors.md 2.4: the frames 20 00 00 00 and 20 00 00 53. -/
theorem test_witness_InboundSequenceIgnored :
    checks 0x20 0 0 0 0 ∧ checks 0x20 0 0 5 3 ∧ frameValid (0x200000#24 ++ 0x00#8) ∧ frameValid (0x200000#24 ++ 0x53#8) := by decide

/-- The count before the first byte, before the third, and before the fourth. -/
theorem test_witness_RxByteAssemblesFrame :
    State.reset.rxCount.toNat = 0 ∧ ({ State.reset with rxCount := 2 } : State).rxCount.toNat = 2 ∧
      ({ State.reset with rxCount := 3, rxBuf := 0x2002FF } : State).rxCount = 3 ∧ (0x2002FF01 : FrameWord) = 0x2002FF#24 ++ 0x01#8 := by
  decide

theorem test_witness_FourBytesActAsOneFrame :
    State.reset.rxCount = 0 ∧ leaves State.rxBuf (exec (.processFrame 0x20 2 0xFF 0 1) { State.reset with rxCount := 1, rxBuf := 0x330000 }) =
      some 0x330000 := by decide

theorem test_witness_InvalidFrameDropped :
    carries Config.reference (.blink 0 10 0 3) = some (0x80, 0, 10, 0, 3) ∧ checks 0x80 0 10 0 2 ∧ (3 : Nibble) ≠ 2 := by decide

theorem test_witness_ValidFrameCompletes :
    carries Config.reference (.blink 0 10 0 2) = some (0x80, 0, 10, 0, 2) ∧
      carries Config.reference (.processFrame 0x99 0 0 1 0) = some (0x99, 0, 0, 1, 0) ∧ checks 0x80 0 10 0 2 ∧ checks 0x99 0 0 1 0 := by
  decide

/-- Both bytes of the establish set, the magic right and wrong in its last bit. -/
theorem test_witness_EstablishAnswersMagic :
    (0x00 : Byte) ∈ Config.reference.opcEstablish ∧ (0x10 : Byte) ∈ Config.reference.opcEstablish ∧ checks 0x00 0x55 0xAA 0 1 ∧
      checks 0x10 0x55 0xAA 3 6 ∧ checks 0x00 0x55 0xAB 0 6 ∧ Config.reference.magic1 = 0x55 ∧ Config.reference.magic2 = 0xAA := by decide

/-- Channel 5, the last, and channel 6. -/
theorem test_witness_SetMotorCommandsChannel :
    Config.reference.wf ∧ Config.reference.opcSetMotor = 0x20 ∧ checks 0x20 5 100 9 2 ∧ (5 : Byte).toNat = (5 : Channel).val ∧
      checks 0x20 6 100 0 6 ∧ 6 ≤ (6 : Byte).toNat := by decide

/-- Camera 7, the last, and camera 8. -/
theorem test_witness_SetCameraSelects :
    Config.reference.opcSetCamera = 0x33 ∧ checks 0x33 7 0x99 0 5 ∧ (7 : Byte).toNat ≤ 7 ∧ checks 0x33 8 0 0 0xB ∧ 8 ≤ (8 : Byte).toNat := by
  decide

theorem test_witness_BlinkEmitsDuration : Config.reference.opcBlink = 0x80 ∧ checks 0x80 0 10 0 2 := by decide

theorem test_witness_ReadSensorAnswersErrorAck : Config.reference.opcReadSensor = 0x40 ∧ checks 0x40 1 0 0 3 := by decide

/-- A byte of no row, and the two outbound codes. -/
theorem test_witness_UnrecognizedAnswersErrorAck :
    ((0x99 : Byte) ∉ Config.reference.opcEstablish ∧ (0x99 : Byte) ∉ Config.reference.otherCodes) ∧ checks 0x99 0 0 1 0 ∧
      Config.reference.opcMotorAck = 0x21 ∧ checks 0x21 2 0xE4 0 0xB ∧ Config.reference.opcInvalidAck = 0xFF ∧ checks 0xFF 6 0x20 0 1 := by
  decide

theorem test_witness_HandshakeLeavesNoState :
    (0x00 : Byte) ∈ Config.reference.opcEstablish ∧
      leaves State.seq (exec (.processFrame 0x00 0x55 0xAA 0 1) State.reset) = some 1 ∧
      leaves State.seq (exec (.processFrame 0x00 0x55 0xAA 0 2) State.reset) = some 0 := by decide

/-- A SET_MOTOR frame that changes a target, a handshake that changes none. -/
theorem test_witness_FramesChangeOneTargetAtMost :
    leaves State.tgt (exec (.processFrame 0x20 5 100 9 2) State.reset) = some #v[1500, 1500, 1500, 1500, 1500, 1388] ∧
      leaves State.tgt (exec (.processFrame 0x00 0x55 0xAA 0 1) State.reset) = some State.reset.tgt := by decide

theorem test_witness_OnlySetCameraChangesSelect :
    leaves State.camSel (exec (.setCamera 7 0x99 0 5) State.reset) = some 7 ∧
      leaves State.camSel (exec (.processFrame 0x33 7 0x99 0 5) State.reset) = some 7 ∧
      leaves State.camSel (exec (.rxByte 5) { State.reset with rxCount := 3, rxBuf := 0x330799 }) = some 7 := by decide

theorem test_witness_PartialFrameSurvivesOtherRequests :
    (∀ b, Instr.tickAll ≠ .rxByte b) ∧
      leaves State.rxCount (exec .tickAll { State.reset with rxCount := 2, rxBuf := 0x200000 }) = some 2 :=
  ⟨nofun, by decide⟩

/-- Raw values below, at and above the ends of the reference band 28..228. -/
theorem test_witness_GovernorClampSaturates :
    Config.reference.wf ∧ (govClamp Config.reference 27, govClamp Config.reference 28, govClamp Config.reference 228,
      govClamp Config.reference 229) = (28, 28, 228, 228) := by decide

theorem test_witness_GovernorMapRange :
    Config.reference.wf ∧ (28 : Byte).toNat ≤ (29 : Byte).toNat ∧ (0 : Byte).toNat ≤ (255 : Byte).toNat := by decide

theorem test_witness_TickMovesOneStep : (5 : Byte).toNat = (5 : Channel).val ∧ 6 ≤ (6 : Byte).toNat := by decide

theorem test_witness_ReadChannelReads : (0 : Byte).toNat = (0 : Channel).val ∧ 6 ≤ (255 : Byte).toNat := by decide

/-- Channels 5 and 6. -/
theorem test_witness_SetTargetCommandsChannel :
    Config.reference.wf ∧ (5 : Byte).toNat = (5 : Channel).val ∧ 6 ≤ (6 : Byte).toNat := by decide

/-- A ramp of distance 21 under a step of 20, ended at the second tick: by TICK and TICK_ALL, with other instructions between them. -/
theorem test_witness_RampLength :
    1 ≤ (channelAt 0 1500 1521).cfg.stepUs ∧ distance (channelAt 0 1500 1521) 0 = 21 ∧
      leavesTarget 0 [.tick 0, .setTarget 1 255, .tick 1, .tickAll] (channelAt 0 1500 1521) ∧
      List.countP (ticks 0) [.tick 0, .setTarget 1 255, .tick 1, .tickAll] = 2 :=
  ⟨by decide, by decide, fun _ h => by
    cases h
    exact ⟨by decide, fun _ h => by
      cases h
      exact ⟨by decide, fun _ h => by
        cases h
        exact ⟨by decide, fun _ h => by cases h; exact ⟨by decide, trivial⟩⟩⟩⟩, by decide⟩

/-- The reset state, channel 0 moved, about to take an illegal word and a TICK. -/
def rampStart : State := { channelAt 0 1500 1521 with port := [.request 0x0B00000000, .request 0x0800000000] }

theorem test_witness_RampLengthOfRequests :
    rampStart.phase = .serving ∧ rampStart.cfg.wf ∧
      rampStart.port = [0x0B00000000, 0x0800000000].map HostEvent.request ++ [] ∧
      (∀ (j : Nat) (u : State), j ≤ 2 → Host.Core.run Sys2Proof.core j rampStart = .next u → u.tgt[(0 : Channel)] = rampStart.tgt[(0 : Channel)]) ∧
      List.countP (ticksByWord 0) [0x0B00000000, 0x0800000000] = 1 := by
  have h : ∀ j : Fin 3, leaves (fun u => u.tgt[(0 : Channel)]) (Host.Core.run Sys2Proof.core j.val rampStart) =
      some rampStart.tgt[(0 : Channel)] := by decide
  refine ⟨rfl, test_reference_config_wf, rfl, fun j u hj hu => ?_, by decide⟩
  have hj' := h ⟨j, by omega⟩
  rw [hu] at hj'
  exact Option.some.inj hj'

theorem test_witness_OneRequestMovesOutputsOneStep_serves :
    Serves (presentRequest (channelAt 2 1500 1900) 0x0800000200) 0x0800000200 [] := ⟨rfl, test_reference_config_wf, rfl⟩

theorem test_witness_OneRequestMovesOutputsOneStep :
    Inv (presentRequest (channelAt 2 1500 1900) 0x0800000200) ∧
      leaves (fun t => escOut t 2) (step (presentRequest (channelAt 2 1500 1900) 0x0800000200)) = some 1520 ∧
      leaves State.cur (exec (.setTarget 2 255) State.reset) = some State.reset.cur ∧
      leaves State.cur (exec (.setMotor 2 0xFF 0 1) State.reset) = some State.reset.cur := by decide

/-- Two states that differ in the direction of channel 1, which has moved, and a run of one step from the first. -/
theorem test_witness_DirectionOnlyReflectsOutputs :
    agreeButDir (channelAt 1 1440 1788) { channelAt 1 1440 1788 with
      cfg := { Config.reference with dir := #v[false, true, false, false, false, false] } } ∧
      Inv (channelAt 1 1440 1788) ∧ escOut (channelAt 1 1440 1788) 1 = 1440 ∧
      leaves State.cur (Host.Core.run Sys2Proof.core 1 (presentRequest (channelAt 1 1440 1788) 0x0900000000)) =
        some #v[1500, 1460, 1500, 1500, 1500, 1500] := by decide

/-- Two states that agree on channel 0 and differ on channel 5. -/
theorem test_witness_ChannelsIndependent :
    agreeOnChannel 0 State.reset (channelAt 5 1100 1900) ∧ State.reset.cur ≠ (channelAt 5 1100 1900).cur ∧
      leaves State.seq (exec .tickAll State.reset) = some 0 ∧ leaves State.seq (exec .tickAll (channelAt 5 1100 1900)) = some 0 := by
  decide

/-- Each way of the conclusion that changes a register. -/
theorem test_witness_OnlyTicksMoveChannels :
    leaves State.cur (exec (.tick 2) (channelAt 2 1500 1900)) ≠ some (channelAt 2 1500 1900).cur ∧
      leaves State.cur (exec .tickAll (channelAt 2 1500 1900)) ≠ some (channelAt 2 1500 1900).cur ∧
      leaves State.tgt (exec (.setTarget 2 255) State.reset) ≠ some State.reset.tgt ∧
      leaves State.tgt (exec (.setMotor 2 0xFF 0 1) State.reset) ≠ some State.reset.tgt ∧
      leaves State.tgt (exec (.processFrame 0x20 2 0xFF 0 1) State.reset) ≠ some State.reset.tgt ∧
      leaves State.tgt (exec (.rxByte 1) { State.reset with rxCount := 3, rxBuf := 0x2002FF }) ≠ some State.reset.tgt := by decide

end Sys2Proof.Tests
end

/-! ### Configurations that the FCAG refuses (00_scope.md R8, 70_reset_and_hazards.md R233, 93_implementation_defined.md I24) -/

namespace Sys2Proof.Machine

/-- In reset, a release settles at once: it is performed if the configuration it presents is well formed, and refused if not. -/
theorem fetch_resetRelease_inReset {s : State} {cfg : Config} {rest : List HostEvent} (hp : s.phase = .inReset)
    (h : s.port = .resetRelease cfg :: rest) :
    fetch s = .settled (if cfg.wf then .next (releaseReset s cfg) else .refused .illFormedConfiguration) := by
  simp only [fetch, hp, h]

/-- Serving, a configuration presented without a reset is refused, well formed or not. -/
theorem fetch_resetRelease_serving {s : State} {cfg : Config} {rest : List HostEvent} (hp : s.phase = .serving)
    (h : s.port = .resetRelease cfg :: rest) : fetch s = .settled (.refused .configurationWithoutReset) := by
  simp only [fetch, hp, h]

/-- Serving, a request is refused under an ill-formed configuration; the counterpart of `fetch_request`. -/
theorem fetch_request_of_not_wf {s : State} {w : RequestWord} {rest : List HostEvent} (hp : s.phase = .serving)
    (hw : ¬s.cfg.wf) (h : s.port = .request w :: rest) : fetch s = .settled (.refused .illFormedConfiguration) := by
  simp only [fetch, hp, h]
  exact if_neg hw

/-- Settles O8: each refusal is settled by `fetch`, so it is the outcome of the step. -/
theorem illFormedConfigurationRefused : Obligations.IllFormedConfigurationRefused := by
  refine fun s rest => ⟨fun cfg hp h hw => ?release, fun w hp h hw => ?request, fun cfg hp h => ?withoutReset⟩
  case release =>
    rw [step_of_settled (fetch_resetRelease_inReset hp h), if_neg hw]
  case request =>
    exact step_of_settled (fetch_request_of_not_wf hp hw h)
  case withoutReset =>
    exact step_of_settled (fetch_resetRelease_serving hp h)

end Sys2Proof.Machine

/-! ### The reset level and the latched configuration (10_state.md R30, R36, 93_implementation_defined.md I23) -/

namespace Sys2Proof.Machine

/-- Before the first reset, `fetch` faults on everything but the assertion of RESET, an empty port included. -/
theorem fetch_beforeReset {s : State} (hp : s.phase = .beforeReset) (h : ∀ rest, s.port ≠ .resetAssert :: rest) :
    fetch s = .settled (.fault .beforeFirstReset) := by
  cases hport : s.port with
  | nil => simp only [fetch, hp, hport]
  | cons e rest =>
    cases e with
    | request w => simp only [fetch, hp, hport]
    | resetAssert => exact absurd hport (h rest)
    | resetRelease cfg => simp only [fetch, hp, hport]

/-- Settles O9: the fault is settled by `fetch`, so it is the outcome of the step. -/
theorem noStepBeforeFirstReset : Obligations.NoStepBeforeFirstReset :=
  fun _ hp h => step_of_settled (fetch_beforeReset hp h)

/-- Settles O10: of the five things a step can do, only a release of reset writes the configuration. -/
theorem configurationFixedBetweenResets : Obligations.ConfigurationFixedBetweenResets := by
  intro s t h
  rcases step_next_cases h with ⟨-, rfl⟩ | ⟨-, -, rfl⟩ | ⟨-, rfl⟩ | ⟨cfg, rest, hp, hport, -, rfl⟩ |
    ⟨-, -, u, o, -, -, -, rfl, hw, -⟩
  case inl | inr.inl | inr.inr.inl => exact .inl rfl
  case inr.inr.inr.inl => exact .inr ⟨cfg, rest, hp, hport, rfl⟩
  case inr.inr.inr.inr =>
    obtain ⟨hcfg, -, -, -⟩ := hw.keeps
    exact .inl hcfg

end Sys2Proof.Machine

/-! ### The output map (10_state.md R34) -/

namespace Sys2Proof.Machine

/-- The output map keeps the governor's interval, which is symmetric about the centre, so under a well-formed configuration the
output register cuts nothing. -/
theorem escOut_toNat {s : State} {ch : Channel} (hw : s.cfg.wf) (hs : inSpan s.cfg s.cur[ch]) :
    ((escOut s ch).toNat : Int) = escOutInt s.cfg ch s.cur[ch].toNat := by
  obtain ⟨-, ⟨hmin, hmax⟩, -, -, hreg, -⟩ := hw
  have hfits : 0 ≤ escOutInt s.cfg ch s.cur[ch].toNat ∧ escOutInt s.cfg ch s.cur[ch].toNat ≤ 65535 := by
    unfold escOutInt dsign
    split <;> omega
  rw [escOut, BitVec.toNat_ofInt]
  omega

/-- Settles O57: the output is the map's integer, and with direction bit 0 that integer is the present value. -/
theorem escOutReflectsAboutCentre : Obligations.EscOutReflectsAboutCentre := by
  rintro s ch ⟨hw, hspan, -⟩
  have hout := escOut_toNat hw (hspan ch).1
  refine ⟨hout, fun hdir => BitVec.eq_of_toNat_eq ?_⟩
  rw [escOutInt, dsign, hdir] at hout
  simp only [Bool.false_eq_true, if_false] at hout
  omega

end Sys2Proof.Machine

/-! ### How an instruction delivers a frame (42_dispatch.md R130 to R136) -/

namespace Sys2Proof.Machine

/-- The command class whose rule runs on the frame that an instruction carries whole; it says nothing of the instructions
that carry none. -/
def carriedClass (cfg : Config) : Instr → CommandClass
  | .processFrame c _ _ _ _ => classify cfg c
  | .establishConnection .. | .establishConnectionAlt .. => .establish
  | .setMotor .. => .setMotor
  | .setCamera .. => .setCamera
  | .readSensor .. => .readSensor
  | .blink .. => .blink
  | _ => .unrecognized

/-- An instruction that carries a frame whole processes it by the rule of its class. -/
theorem exec_of_carries {i : Instr} {s : State} {c v1 v2 : Byte} {sq ck : Nibble}
    (h : carries s.cfg i = some (c, v1, v2, sq, ck)) :
    exec i s = .next (processFields (commandRule (carriedClass s.cfg i)) c v1 v2 sq ck s) := by
  cases i <;> cases h <;> rfl

/-- An RX_BYTE before the fourth stores its byte. -/
theorem exec_rxByte_store {s : State} (b : Byte) (h : s.rxCount.toNat < 3) :
    exec (.rxByte b) s = .next (respond (setRx s (s.rxCount + 1) (putRxByte s.rxBuf s.rxCount b)) .ok
      (BitVec.ofNat 32 (s.rxCount.toNat + 1))) :=
  if_pos h

/-- A fourth RX_BYTE clears the buffer and processes the frame it completes. -/
theorem exec_rxByte_complete {s : State} (b : Byte) (h : ¬s.rxCount.toNat < 3) :
    exec (.rxByte b) s = .next (processFrame (byte0 (s.rxBuf ++ b)) (byte1 (s.rxBuf ++ b)) (byte2 (s.rxBuf ++ b))
      (seqNibble (s.rxBuf ++ b)) (checkNibble (s.rxBuf ++ b)) (setRx s 0 0)) :=
  if_neg h

/-- DECODE only answers, whether the frame is valid or not. -/
theorem exec_decode_finish (c v1 v2 : Byte) (sq ck : Nibble) (s : State) :
    ∃ o, exec (.decode c v1 v2 sq ck) s = .next (finish s o) := by
  by_cases h : ck = calcChecksum c v1 v2 sq
  · exact ⟨_, if_neg (not_not.mpr h)⟩
  · exact ⟨_, if_pos h⟩

/-- A channel request raises ERR_CHANNEL or has its effect on a channel. -/
theorem onChannel_cases (s : State) (ch : Byte) (effect : Channel → State) :
    onChannel s ch effect = raise s .errChannel 0 ∨ ∃ k, onChannel s ch effect = effect k := by
  cases h : channelOf ch with
  | none => exact .inl (onChannel_of_none effect h)
  | some k => exact .inr ⟨k, onChannel_of_some effect h⟩

theorem classify_eq_setMotor {cfg : Config} {c : Byte} (h : classify cfg c = .setMotor) : c = cfg.opcSetMotor := by
  unfold classify at h
  split_ifs at h with _ hc
  exact hc

theorem classify_eq_setCamera {cfg : Config} {c : Byte} (h : classify cfg c = .setCamera) : c = cfg.opcSetCamera := by
  unfold classify at h
  split_ifs at h with _ _ hc
  exact hc

/-- A frame of class SET_MOTOR comes by that wire command or by PROCESS_FRAME of its byte. -/
theorem eq_of_carriedClass_setMotor {cfg : Config} {i : Instr} {c v1 v2 : Byte} {sq ck : Nibble}
    (hf : carries cfg i = some (c, v1, v2, sq, ck)) (hk : carriedClass cfg i = .setMotor) :
    i = .setMotor v1 v2 sq ck ∨ i = .processFrame cfg.opcSetMotor v1 v2 sq ck := by
  cases i with
  | setMotor => cases hf; exact .inl rfl
  | processFrame => cases hf; exact .inr (by rw [← classify_eq_setMotor hk])
  | _ => cases hk

/-- A frame of class SET_CAMERA comes by that wire command or by PROCESS_FRAME of its byte. -/
theorem eq_of_carriedClass_setCamera {cfg : Config} {i : Instr} {c v1 v2 : Byte} {sq ck : Nibble}
    (hf : carries cfg i = some (c, v1, v2, sq, ck)) (hk : carriedClass cfg i = .setCamera) :
    i = .setCamera v1 v2 sq ck ∨ i = .processFrame cfg.opcSetCamera v1 v2 sq ck := by
  cases i with
  | setCamera => cases hf; exact .inl rfl
  | processFrame => cases hf; exact .inr (by rw [← classify_eq_setCamera hk])
  | _ => cases hk

@[simp] theorem completeFrame_tgt (r : CommandResult) (q : Nibble) : (completeFrame r q).tgt = r.state.tgt := rfl
@[simp] theorem completeFrame_camSel (r : CommandResult) (q : Nibble) : (completeFrame r q).camSel = r.state.camSel := rfl

/-- Processing a frame leaves every target unless it is of class SET_MOTOR, and the camera select unless it is of class
SET_CAMERA with an index of at most 7. -/
theorem processFields_tgt_camSel (k : CommandClass) (c v1 v2 : Byte) (sq ck : Nibble) (s : State) :
    ((processFields (commandRule k) c v1 v2 sq ck s).tgt = s.tgt ∨ k = .setMotor) ∧
      ((processFields (commandRule k) c v1 v2 sq ck s).camSel = s.camSel ∨ k = .setCamera ∧ v1.toNat ≤ 7) := by
  by_cases h : ck = calcChecksum c v1 v2 sq
  · rw [processFields_of_valid _ c v1 v2 sq ck s h, completeFrame_tgt, completeFrame_camSel]
    rcases commandRule_state k c v1 v2 s with e | ⟨hk, ch, -, e⟩ | ⟨hk, hv, e⟩ <;> rw [e]
    · exact ⟨.inl rfl, .inl rfl⟩
    · exact ⟨.inr hk, .inl rfl⟩
    · exact ⟨.inl rfl, .inr ⟨hk, hv⟩⟩
  · rw [processFields_of_invalid _ c v1 v2 sq ck s h]
    exact ⟨.inl rfl, .inl rfl⟩

/-- Every instruction carries a frame whole, or is the RX_BYTE that completes one, or leaves the camera select and, unless it is
SET_TARGET, every target. -/
theorem exec_frame_cases {i : Instr} {s t : State} (h : exec i s = .next t) :
    (∃ c v1 v2 sq ck, carries s.cfg i = some (c, v1, v2, sq, ck) ∧
      t = processFields (commandRule (carriedClass s.cfg i)) c v1 v2 sq ck s) ∨
    (∃ b, i = .rxByte b ∧ s.rxCount = 3 ∧
      t = processFrame (byte0 (s.rxBuf ++ b)) (byte1 (s.rxBuf ++ b)) (byte2 (s.rxBuf ++ b)) (seqNibble (s.rxBuf ++ b))
        (checkNibble (s.rxBuf ++ b)) (setRx s 0 0)) ∨
    (t.camSel = s.camSel ∧ (t.tgt = s.tgt ∨ ∃ ch raw, i = .setTarget ch raw)) := by
  cases hf : carries s.cfg i with
  | some f =>
    obtain ⟨c, v1, v2, sq, ck⟩ := f
    rw [exec_of_carries hf] at h
    exact .inl ⟨c, v1, v2, sq, ck, rfl, (Host.Outcome.next.inj h).symm⟩
  | none =>
    right
    cases i with
    | rxByte b =>
      by_cases hr : s.rxCount.toNat < 3
      · rw [exec_rxByte_store b hr] at h; cases h
        exact .inr ⟨rfl, .inl rfl⟩
      · rw [exec_rxByte_complete b hr] at h
        exact .inl ⟨b, rfl, by bv_omega, (Host.Outcome.next.inj h).symm⟩
    | setTarget ch raw =>
      cases h
      rcases onChannel_cases s ch _ with e | ⟨k, e⟩ <;> rw [e] <;> exact .inr ⟨rfl, .inr ⟨ch, raw, rfl⟩⟩
    | tick ch | readChannel ch =>
      cases h
      rcases onChannel_cases s ch _ with e | ⟨k, e⟩ <;> rw [e] <;> exact .inr ⟨rfl, .inl rfl⟩
    | decode c v1 v2 sq ck =>
      obtain ⟨o, e⟩ := exec_decode_finish c v1 v2 sq ck s
      rw [e] at h; cases h
      exact .inr ⟨rfl, .inl rfl⟩
    | encode | seqCurrent | seqNext | tickAll => cases h; exact .inr ⟨rfl, .inl rfl⟩
    | _ => cases hf

/-- Settles O44: of the frames that an instruction can deliver, only one of class SET_CAMERA writes the camera select. -/
theorem onlySetCameraChangesSelect : Obligations.OnlySetCameraChangesSelect := by
  intro i s t h hne
  rcases exec_frame_cases h with ⟨c, v1, v2, sq, ck, hf, rfl⟩ | ⟨b, rfl, hr, rfl⟩ | ⟨hsel, -⟩
  case inl =>
    obtain ⟨hk, hv⟩ := (processFields_tgt_camSel _ c v1 v2 sq ck s).2.resolve_left hne
    rcases eq_of_carriedClass_setCamera hf hk with e | e
    · exact .inl ⟨v1, v2, sq, ck, e, hv⟩
    · exact .inr (.inl ⟨v1, v2, sq, ck, e, hv⟩)
  case inr.inl =>
    obtain ⟨hk, hv⟩ := (processFields_tgt_camSel _ _ _ _ _ _ (setRx s 0 0)).2.resolve_left hne
    exact .inr (.inr ⟨b, rfl, hr, classify_eq_setCamera hk, hv⟩)
  case inr.inr => exact absurd hsel hne

/-- An instruction that ticks no channel leaves every present value. -/
theorem exec_cur_of_not_ticks {i : Instr} {s t : State} (h : exec i s = .next t) (hi : ∀ k, ticks k i = false) :
    t.cur = s.cur := by
  refine Vector.ext fun k hk => (exec_cur h ⟨k, hk⟩).trans ?_
  rw [hi]; rfl

/-- Settles O56: a present value moves only where a channel is ticked, and a target only by SET_TARGET or by a delivered frame
of class SET_MOTOR. -/
theorem onlyTicksMoveChannels : Obligations.OnlyTicksMoveChannels := by
  refine fun i s t h => ⟨fun hne => ?cur, fun hne => ?tgt⟩
  case cur =>
    obtain ⟨k, hk⟩ : ∃ k, ticks k i = true := by
      by_contra hn
      exact hne (exec_cur_of_not_ticks h fun k => Bool.eq_false_iff.mpr fun hk => hn ⟨k, hk⟩)
    exact (of_decide_eq_true hk).imp_left fun e => ⟨_, e⟩
  case tgt =>
    rcases exec_frame_cases h with ⟨c, v1, v2, sq, ck, hf, rfl⟩ | ⟨b, rfl, hr, rfl⟩ | ⟨-, htgt⟩
    case inl =>
      have hk := (processFields_tgt_camSel _ c v1 v2 sq ck s).1.resolve_left hne
      rcases eq_of_carriedClass_setMotor hf hk with e | e
      · exact .inr (.inl ⟨v1, v2, sq, ck, e⟩)
      · exact .inr (.inr (.inl ⟨v1, v2, sq, ck, e⟩))
    case inr.inl =>
      have hk := (processFields_tgt_camSel _ _ _ _ _ _ (setRx s 0 0)).1.resolve_left hne
      exact .inr (.inr (.inr ⟨b, rfl, hr, classify_eq_setMotor hk⟩))
    case inr.inr => exact .inl (htgt.resolve_left hne)

end Sys2Proof.Machine

/-! ### Channels are independent (10_state.md R25): each operation keeps the agreement of two states on a channel -/

namespace Sys2Proof.Machine

section agreement

variable {k : Channel} {s u : State} (h : agreeOnChannel k s u)
include h

/-- Responses and events are no part of the agreement. -/
theorem agreeOnChannel_finish (o p : Completion) : agreeOnChannel k (finish s o) (finish u p) := h

theorem agreeOnChannel_setSeq (q r : Nibble) : agreeOnChannel k (setSeq s q) (setSeq u r) := h

theorem agreeOnChannel_setCam (x y : BitVec 3) : agreeOnChannel k (setCam s x) (setCam u y) := h

theorem agreeOnChannel_setRx (n : BitVec 2) (b : BitVec 24) : agreeOnChannel k (setRx s n b) (setRx u n b) := by
  obtain ⟨hcfg, -, -, hcur, htgt⟩ := h
  exact ⟨hcfg, rfl, rfl, hcur, htgt⟩

theorem agreeOnChannel_setTgt (j : Channel) (x : Pulse) : agreeOnChannel k (setTgt s j x) (setTgt u j x) := by
  obtain ⟨hcfg, hcount, hbuf, hcur, htgt⟩ := h
  refine ⟨hcfg, hcount, hbuf, hcur, ?_⟩
  rw [setTgt_tgt, setTgt_tgt, getElem_set_channel, getElem_set_channel, htgt]

/-- A channel's slew step reads no other channel's registers. -/
theorem agreeOnChannel_tick (j : Channel) :
    agreeOnChannel k (setCur s j (tickStep s.cfg s.cur[j] s.tgt[j])) (setCur u j (tickStep u.cfg u.cur[j] u.tgt[j])) := by
  obtain ⟨hcfg, hcount, hbuf, hcur, htgt⟩ := h
  refine ⟨hcfg, hcount, hbuf, ?_, htgt⟩
  rw [setCur_cur, setCur_cur, getElem_set_channel, getElem_set_channel, hcur]
  by_cases hk : k = j
  · subst hk; rw [hcfg, hcur, htgt]
  · rw [if_neg hk, if_neg hk]

theorem agreeOnChannel_tickAll : agreeOnChannel k (setAllCur s (tickAllCur s)) (setAllCur u (tickAllCur u)) := by
  obtain ⟨hcfg, hcount, hbuf, hcur, htgt⟩ := h
  refine ⟨hcfg, hcount, hbuf, ?_, htgt⟩
  rw [setAllCur_cur, setAllCur_cur, tickAllCur, tickAllCur, perChannel_getElem, perChannel_getElem, hcfg, hcur, htgt]

/-- A channel request names the same channel, or none, in both states. -/
theorem agreeOnChannel_onChannel (ch : Byte) {f g : Channel → State} (hfg : ∀ j, agreeOnChannel k (f j) (g j)) :
    agreeOnChannel k (onChannel s ch f) (onChannel u ch g) := by
  cases hc : channelOf ch with
  | none =>
    rw [onChannel_of_none f hc, onChannel_of_none g hc]
    exact agreeOnChannel_finish h _ _
  | some j =>
    rw [onChannel_of_some f hc, onChannel_of_some g hc]
    exact hfg j

theorem agreeOnChannel_commandRule (r : CommandClass) (c v1 v2 : Byte) :
    agreeOnChannel k (commandRule r c v1 v2 s).state (commandRule r c v1 v2 u).state := by
  cases r with
  | setMotor =>
    simp only [commandRule, setMotorRule]
    cases channelOf v1 with
    | none => exact h
    | some j =>
      have ⟨hcfg, _, _, _, _⟩ := h
      rw [hcfg]
      exact agreeOnChannel_setTgt h j _
  | setCamera =>
    simp only [commandRule, setCameraRule]
    split
    · exact agreeOnChannel_setCam h _ _
    · exact h
  | establish | readSensor | blink | unrecognized => exact h

theorem agreeOnChannel_processFields (r : CommandClass) (c v1 v2 : Byte) (sq ck : Nibble) :
    agreeOnChannel k (processFields (commandRule r) c v1 v2 sq ck s) (processFields (commandRule r) c v1 v2 sq ck u) := by
  by_cases hck : ck = calcChecksum c v1 v2 sq
  · rw [processFields_of_valid _ c v1 v2 sq ck s hck, processFields_of_valid _ c v1 v2 sq ck u hck]
    exact agreeOnChannel_finish (agreeOnChannel_setSeq (agreeOnChannel_commandRule h r c v1 v2) _ _) _ _
  · rw [processFields_of_invalid _ c v1 v2 sq ck s hck, processFields_of_invalid _ c v1 v2 sq ck u hck]
    exact agreeOnChannel_finish h _ _

/-- RX_BYTE stores the byte at the same place in both states, or completes the same frame. -/
theorem agreeOnChannel_rxByte {t v : State} (b : Byte) (hs : exec (.rxByte b) s = .next t)
    (hu : exec (.rxByte b) u = .next v) : agreeOnChannel k t v := by
  have ⟨hcfg, hcount, hbuf, _, _⟩ := h
  by_cases hr : s.rxCount.toNat < 3
  · rw [exec_rxByte_store b hr] at hs
    rw [exec_rxByte_store b (hcount ▸ hr), ← hcount, ← hbuf] at hu
    cases hs; cases hu
    exact agreeOnChannel_finish (agreeOnChannel_setRx h _ _) _ _
  · rw [exec_rxByte_complete b hr] at hs
    rw [exec_rxByte_complete b (hcount ▸ hr), ← hbuf] at hu
    cases hs; cases hu
    simp only [processFrame, setRx_cfg, hcfg]
    exact agreeOnChannel_processFields (agreeOnChannel_setRx h 0 0) _ _ _ _ _ _

end agreement

/-- Settles O55: a carried frame is processed alike in both states, and each other instruction is one of the operations above. -/
theorem channelsIndependent : Obligations.ChannelsIndependent := by
  intro i k s u t v h hs hu
  have ⟨hcfg, _, _, _, _⟩ := h
  cases hf : carries s.cfg i with
  | some f =>
    obtain ⟨c, v1, v2, sq, ck⟩ := f
    rw [exec_of_carries hf] at hs
    rw [exec_of_carries (hcfg ▸ hf), ← hcfg] at hu
    cases hs; cases hu
    exact agreeOnChannel_processFields h _ c v1 v2 sq ck
  | none =>
    cases i with
    | rxByte b => exact agreeOnChannel_rxByte h b hs hu
    | setTarget ch raw =>
      cases hs; cases hu
      refine agreeOnChannel_onChannel h ch fun j => agreeOnChannel_finish ?_ _ _
      rw [hcfg]
      exact agreeOnChannel_setTgt h j _
    | tick ch =>
      cases hs; cases hu
      exact agreeOnChannel_onChannel h ch fun j => agreeOnChannel_finish (agreeOnChannel_tick h j) _ _
    | readChannel ch =>
      cases hs; cases hu
      exact agreeOnChannel_onChannel h ch fun _ => agreeOnChannel_finish h _ _
    | tickAll =>
      cases hs; cases hu
      exact agreeOnChannel_finish (agreeOnChannel_tickAll h) _ _
    | seqNext =>
      cases hs; cases hu
      exact agreeOnChannel_finish (agreeOnChannel_setSeq h _ _) _ _
    | decode c v1 v2 sq ck =>
      obtain ⟨o, es⟩ := exec_decode_finish c v1 v2 sq ck s
      obtain ⟨p, eu⟩ := exec_decode_finish c v1 v2 sq ck u
      rw [es] at hs
      rw [eu] at hu
      cases hs; cases hu
      exact agreeOnChannel_finish h o p
    | encode | seqCurrent =>
      cases hs; cases hu
      exact agreeOnChannel_finish h _ _
    | _ => cases hf

end Sys2Proof.Machine

/-! ### Requests that only read (20_memory.md R59) -/

namespace Sys2Proof.Machine

/-- With the registers of `s`, the instruction gives this response and does nothing else, whatever the port and the record of
past outputs hold. -/
def AnswersOnly (i : Instr) (s : State) (st : Status) (data : BitVec 32) : Prop :=
  ∀ u : State, u.seq = s.seq → u.cur = s.cur → u.tgt = s.tgt → exec i u = .next (respond u st data)

/-- A response writes no register, so a request that only answers gives the same response again. -/
theorem AnswersOnly.repeats {i : Instr} {s : State} {st : Status} {data : BitVec 32} (h : AnswersOnly i s st data) :
    exec i s = .next (respond s st data) ∧
      exec i (respond s st data) = .next (respond (respond s st data) st data) :=
  ⟨h s rfl rfl rfl, h (respond s st data) rfl rfl rfl⟩

theorem answersOnly_encode (cmd v1 v2 : Byte) (sq : Nibble) (s : State) :
    AnswersOnly (.encode cmd v1 v2 sq) s .ok (frameWord cmd v1 v2 sq (calcChecksum cmd v1 v2 sq)) :=
  fun _ _ _ _ => rfl

theorem answersOnly_decode_of_valid {c v1 v2 : Byte} {sq ck : Nibble} (h : ck = calcChecksum c v1 v2 sq) (s : State) :
    AnswersOnly (.decode c v1 v2 sq ck) s .ok (frameWord c v1 v2 sq 0) :=
  fun _ _ _ _ => if_neg (not_not.mpr h)

theorem answersOnly_decode_of_invalid {c v1 v2 : Byte} {sq ck : Nibble} (h : ck ≠ calcChecksum c v1 v2 sq) (s : State) :
    AnswersOnly (.decode c v1 v2 sq ck) s .errChecksum (checksumErrorData ck (calcChecksum c v1 v2 sq)) :=
  fun _ _ _ _ => if_pos h

theorem answersOnly_seqCurrent (s : State) : AnswersOnly .seqCurrent s .ok (s.seq.setWidth 32) := by
  intro u hseq _ _
  rw [← hseq]
  rfl

theorem answersOnly_readChannel_of_some {ch : Byte} {k : Channel} (h : channelOf ch = some k) (s : State) :
    AnswersOnly (.readChannel ch) s .ok (s.tgt[k] ++ s.cur[k]) := by
  intro u _ hcur htgt
  rw [← hcur, ← htgt]
  exact congrArg Host.Outcome.next (onChannel_of_some _ h)

theorem answersOnly_readChannel_of_none {ch : Byte} (h : channelOf ch = none) (s : State) :
    AnswersOnly (.readChannel ch) s .errChannel 0 :=
  fun _ _ _ _ => congrArg Host.Outcome.next (onChannel_of_none _ h)

/-- Settles O16: each of the four requests only answers, by a response that the registers and its operands fix. -/
theorem readOnlyRequestsWriteNothing : Obligations.ReadOnlyRequestsWriteNothing := by
  intro i s t hi hexec
  have ⟨st, data, hanswers⟩ : ∃ st data, AnswersOnly i s st data := by
    rcases hi with ⟨cmd, v1, v2, sq, rfl⟩ | ⟨c, v1, v2, sq, ck, rfl⟩ | rfl | ⟨ch, rfl⟩
    case inl => exact ⟨_, _, answersOnly_encode cmd v1 v2 sq s⟩
    case inr.inl =>
      by_cases h : ck = calcChecksum c v1 v2 sq
      · exact ⟨_, _, answersOnly_decode_of_valid h s⟩
      · exact ⟨_, _, answersOnly_decode_of_invalid h s⟩
    case inr.inr.inl => exact ⟨_, _, answersOnly_seqCurrent s⟩
    case inr.inr.inr =>
      cases h : channelOf ch with
      | some k => exact ⟨_, _, answersOnly_readChannel_of_some h s⟩
      | none => exact ⟨_, _, answersOnly_readChannel_of_none h s⟩
  obtain ⟨hfirst, hagain⟩ := hanswers.repeats
  cases hfirst.symm.trans hexec
  exact ⟨st, data, rfl, hagain⟩

end Sys2Proof.Machine

/-! ### Request words: decoding and encoding are inverse (30_encoding.md R71 to R73, R76, R79) -/

namespace Sys2Proof.Machine

/-- Exactly the words of an assigned opcode over a payload clear of that opcode's reserved bits decode, each to its operands. -/
theorem decodeRequest_eq_ok_iff {w : RequestWord} {i : Instr} :
    decodeRequest w = .ok i ↔ ∃ op p, requestWord (opcodeByte op) p = w ∧ p &&& reservedZeroMask op = 0 ∧
      requestInstr op p = i := by
  constructor
  · intro h
    cases ho : requestOp (opcodeOf w) with
    | none => rw [decodeRequest_of_none ho] at h; cases h
    | some op =>
      rw [decodeRequest_of_op ho] at h
      split_ifs at h with hz
      exact ⟨op, payloadOf w, by rw [← requestOp_eq_some.mp ho, requestWord_parts], not_not.mp hz, Except.ok.inj h⟩
  · rintro ⟨op, p, rfl, hz, rfl⟩
    rw [decodeRequest_of_op (op := op) (by simp), payloadOf_requestWord, if_neg (not_not.mpr hz)]

/-- A field that lies whole under a mask is 0 in every payload clear of the mask. -/
theorem extractLsb'_eq_zero_of_masked {p m : BitVec 32} {k n : Nat} (h : p &&& m = 0)
    (hm : m.extractLsb' k n = BitVec.allOnes n) : p.extractLsb' k n = 0 := by
  rw [← BitVec.and_allOnes (x := p.extractLsb' k n), ← hm, ← BitVec.extractLsb'_and, h]
  exact BitVec.extractLsb'_zero

/-- A payload is the word of its four bytes, whatever they are known to be. -/
theorem bytesWord_eq_of_bytes {p : BitVec 32} {a b c d : Byte} (h0 : byte0 p = a) (h1 : byte1 p = b) (h2 : byte2 p = c)
    (h3 : byte3 p = d) : bytesWord a b c d = p := by
  rw [← h0, ← h1, ← h2, ← h3, bytesWord_bytes]

/-- Encoding the operands of a payload clear of its opcode's reserved bits puts the payload together again. -/
theorem encode_requestInstr (cfg : Config) {op : RequestOp} {p : BitVec 32} (h : p &&& reservedZeroMask op = 0) :
    encode cfg (requestInstr op p) = .request (requestWord (opcodeByte op) p) := by
  have assembled {q : BitVec 32} (hq : q = p) :
      Encoded.request (requestWord (opcodeByte op) q) = .request (requestWord (opcodeByte op) p) := by rw [hq]
  have reserved {k n : Nat} := extractLsb'_eq_zero_of_masked (k := k) (n := n) h
  cases op with
  | encode =>
    have hck : checkNibble p = 0 := reserved rfl
    exact assembled (by rw [← hck, frameWord_fields])
  | decode | processFrame => exact assembled (frameWord_fields p)
  | seqCurrent | seqNext | tickAll => exact assembled (h.symm.trans BitVec.and_allOnes)
  | rxByte => exact assembled (bytesWord_eq_of_bytes (reserved rfl) (reserved rfl) (reserved rfl) rfl)
  | setTarget => exact assembled (bytesWord_eq_of_bytes (reserved rfl) (reserved rfl) rfl rfl)
  | tick | readChannel => exact assembled (bytesWord_eq_of_bytes (reserved rfl) (reserved rfl) rfl (reserved rfl))

/-- Bytes are clear of a mask that is clear of them byte by byte. -/
theorem bytesWord_and_eq_zero {a b c d m n o p : Byte} (ha : a &&& m = 0) (hb : b &&& n = 0) (hc : c &&& o = 0)
    (hd : d &&& p = 0) : bytesWord a b c d &&& bytesWord m n o p = 0 := by
  rw [Laws.TableRow.bytesWord_masked, ha, hb, hc, hd]
  rfl

/-- The request word of an instruction decodes to it: the payload is clear of the reserved bits and holds the operands. -/
theorem decodeRequest_of_encode {cfg : Config} {i : Instr} {w : RequestWord} (h : encode cfg i = .request w) :
    decodeRequest w = .ok i := by
  rw [decodeRequest_eq_ok_iff]
  cases i with
  | encode cmd v1 v2 seq =>
    cases h; exact ⟨.encode, _, rfl, Laws.TableRow.frameWord_low cmd v1 v2 seq, by simp [requestInstr]⟩
  | decode => cases h; exact ⟨.decode, _, rfl, BitVec.and_zero, by simp [requestInstr]⟩
  | seqCurrent => cases h; exact ⟨.seqCurrent, _, rfl, BitVec.zero_and, rfl⟩
  | seqNext => cases h; exact ⟨.seqNext, _, rfl, BitVec.zero_and, rfl⟩
  | rxByte b =>
    cases h
    have hz : bytesWord 0 0 0 b &&& bytesWord 0xFF 0xFF 0xFF 0 = 0 := bytesWord_and_eq_zero rfl rfl rfl BitVec.and_zero
    exact ⟨.rxByte, _, rfl, hz, by simp [requestInstr]⟩
  | processFrame => cases h; exact ⟨.processFrame, _, rfl, BitVec.and_zero, by simp [requestInstr]⟩
  | setTarget ch raw =>
    cases h
    have hz : bytesWord 0 0 ch raw &&& bytesWord 0xFF 0xFF 0 0 = 0 :=
      bytesWord_and_eq_zero rfl rfl BitVec.and_zero BitVec.and_zero
    exact ⟨.setTarget, _, rfl, hz, by simp [requestInstr]⟩
  | tick ch =>
    cases h
    have hz : bytesWord 0 0 ch 0 &&& bytesWord 0xFF 0xFF 0 0xFF = 0 := bytesWord_and_eq_zero rfl rfl BitVec.and_zero rfl
    exact ⟨.tick, _, rfl, hz, by simp [requestInstr]⟩
  | tickAll => cases h; exact ⟨.tickAll, _, rfl, BitVec.zero_and, rfl⟩
  | readChannel ch =>
    cases h
    have hz : bytesWord 0 0 ch 0 &&& bytesWord 0xFF 0xFF 0 0xFF = 0 := bytesWord_and_eq_zero rfl rfl BitVec.and_zero rfl
    exact ⟨.readChannel, _, rfl, hz, by simp [requestInstr]⟩
  | _ => cases h

end Sys2Proof.Machine

/-! ### Frame words: the wire commands and their five fields (30_encoding.md R80, R81, R83) -/

namespace Sys2Proof.Machine

/-- Fields put together in a frame word are decoded as these fields. -/
@[simp] theorem decodeFrame_frameWord (cfg : Config) (c v1 v2 : Byte) (sq ck : Nibble) :
    decodeFrame cfg (frameWord c v1 v2 sq ck) = decodeFields cfg c v1 v2 sq ck := by
  simp only [decodeFrame, byte0_frameWord, byte1_frameWord, byte2_frameWord, seqNibble_frameWord, checkNibble_frameWord]

/-- Whatever row the command byte selects, the wire command is well formed, carries the five fields and encodes to their frame
word. -/
theorem decodeFields_spec (cfg : Config) (c v1 v2 : Byte) (sq ck : Nibble) :
    (decodeFields cfg c v1 v2 sq ck).wf cfg = true ∧
      carries cfg (decodeFields cfg c v1 v2 sq ck) = some (c, v1, v2, sq, ck) ∧
      encode cfg (decodeFields cfg c v1 v2 sq ck) = .frame (frameWord c v1 v2 sq ck) := by
  unfold decodeFields
  split_ifs with hhead hmem hmotor hcamera hsensor hblink hack hinvalid
  · exact ⟨by simp [Instr.wf, hhead], rfl, rfl⟩
  · exact ⟨by simp [Instr.wf, hhead, hmem], rfl, rfl⟩
  · subst hmotor; exact ⟨rfl, rfl, rfl⟩
  · subst hcamera; exact ⟨rfl, rfl, rfl⟩
  · subst hsensor; exact ⟨rfl, rfl, rfl⟩
  · subst hblink; exact ⟨rfl, rfl, rfl⟩
  · subst hack; exact ⟨rfl, rfl, rfl⟩
  · subst hinvalid; exact ⟨rfl, rfl, rfl⟩
  · exact ⟨by simp [Instr.wf, Config.otherCodes, hmem, hmotor, hcamera, hsensor, hblink, hack, hinvalid], rfl, rfl⟩

/-- The frame word of a well-formed wire command decodes to it, if the command bytes are distinct: then the decoder's tests of the
rows before its own all fail. -/
theorem decodeFrame_of_encode {cfg : Config} {i : Instr} {f : FrameWord} (hd : cfg.opcodesDistinct) (hw : i.wf cfg = true)
    (h : encode cfg i = .frame f) : decodeFrame cfg f = i := by
  have not_head {c : Byte} (hc : c ∉ cfg.opcEstablish) : cfg.opcEstablish.head? ≠ some c := fun e => hc (List.mem_of_head? e)
  simp only [Config.opcodesDistinct, Config.otherCodes, List.nodup_cons, List.mem_cons, List.not_mem_nil, not_or, or_false,
    forall_eq_or_imp, forall_eq] at hd
  obtain ⟨⟨⟨motor_ack, motor_camera, motor_sensor, motor_blink, motor_invalid⟩, ⟨ack_camera, ack_sensor, ack_blink, ack_invalid⟩,
    ⟨camera_sensor, camera_blink, camera_invalid⟩, ⟨sensor_blink, sensor_invalid⟩, blink_invalid, -⟩,
    motor, ack, camera, sensor, blink, invalid⟩ := hd
  cases i with
  | establishConnection c =>
    cases h
    rw [decodeFrame_frameWord, decodeFields, if_pos (eq_of_beq hw)]
  | establishConnectionAlt c =>
    cases h
    obtain ⟨hmem, hhead⟩ : c ∈ cfg.opcEstablish ∧ cfg.opcEstablish.head? ≠ some c := by simpa [Instr.wf] using hw
    rw [decodeFrame_frameWord, decodeFields, if_neg hhead, if_pos hmem]
  | setMotor =>
    cases h
    rw [decodeFrame_frameWord, decodeFields, if_neg (not_head motor), if_neg motor, if_pos rfl]
  | setCamera =>
    cases h
    rw [decodeFrame_frameWord, decodeFields, if_neg (not_head camera), if_neg camera, if_neg (Ne.symm motor_camera), if_pos rfl]
  | readSensor =>
    cases h
    rw [decodeFrame_frameWord, decodeFields, if_neg (not_head sensor), if_neg sensor, if_neg (Ne.symm motor_sensor),
      if_neg (Ne.symm camera_sensor), if_pos rfl]
  | blink =>
    cases h
    rw [decodeFrame_frameWord, decodeFields, if_neg (not_head blink), if_neg blink, if_neg (Ne.symm motor_blink),
      if_neg (Ne.symm camera_blink), if_neg (Ne.symm sensor_blink), if_pos rfl]
  | motorAck =>
    cases h
    rw [decodeFrame_frameWord, decodeFields, if_neg (not_head ack), if_neg ack, if_neg (Ne.symm motor_ack), if_neg ack_camera,
      if_neg ack_sensor, if_neg ack_blink, if_pos rfl]
  | invalidAck =>
    cases h
    rw [decodeFrame_frameWord, decodeFields, if_neg (not_head invalid), if_neg invalid, if_neg (Ne.symm motor_invalid),
      if_neg (Ne.symm camera_invalid), if_neg (Ne.symm sensor_invalid), if_neg (Ne.symm blink_invalid),
      if_neg (Ne.symm ack_invalid), if_pos rfl]
  | unrecognized c =>
    cases h
    obtain ⟨hset, hother⟩ : c ∉ cfg.opcEstablish ∧ c ∉ cfg.otherCodes := by simpa [Instr.wf] using hw
    simp only [Config.otherCodes, List.mem_cons, List.not_mem_nil, not_or, or_false] at hother
    obtain ⟨hmotor, hack, hcamera, hsensor, hblink, hinvalid⟩ := hother
    rw [decodeFrame_frameWord, decodeFields, if_neg (not_head hset), if_neg hset, if_neg hmotor, if_neg hcamera, if_neg hsensor,
      if_neg hblink, if_neg hack, if_neg hinvalid]
  | _ => cases h

end Sys2Proof.Machine

/-! ### The encoding statements (30_encoding.md) -/

namespace Sys2Proof.Machine

/-- Settles O17: each kind of word decodes to the instruction that it encodes. -/
theorem decodeOfEncode : Obligations.DecodeOfEncode := by
  intro cfg i hd hw
  cases h : encode cfg i with
  | request w => exact decodeRequest_of_encode h
  | frame f => exact congrArg Except.ok (decodeFrame_of_encode hd hw h)

/-- Settles O18: a request word that decodes is an opcode over a payload clear of its reserved bits, and a frame word is its five
fields. -/
theorem encodeOfDecode : Obligations.EncodeOfDecode := by
  intro cfg w i h
  cases w with
  | request w =>
    obtain ⟨op, p, rfl, hz, rfl⟩ := decodeRequest_eq_ok_iff.mp h
    exact encode_requestInstr cfg hz
  | frame f =>
    obtain rfl : decodeFrame cfg f = i := Except.ok.inj h
    obtain ⟨-, -, henc⟩ := decodeFields_spec cfg (byte0 f) (byte1 f) (byte2 f) (seqNibble f) (checkNibble f)
    rwa [frameWord_fields] at henc

/-- Settles O19: the five fields are those at their places in the word. -/
theorem everyFrameWordDecodes : Obligations.EveryFrameWordDecodes := by
  intro cfg f
  obtain ⟨hw, hf, -⟩ := decodeFields_spec cfg (byte0 f) (byte1 f) (byte2 f) (seqNibble f) (checkNibble f)
  exact ⟨hw, _, _, _, _, _, hf, frameWord_fields f⟩

/-- Settles O20: each word is written out, so the decoder evaluates. -/
theorem specWordsDecode : Obligations.SpecWordsDecode := by
  unfold Obligations.SpecWordsDecode
  decide

end Sys2Proof.Machine

/-! ### Serving a presented word (30_encoding.md R76, R77) -/

namespace Sys2Proof.Machine

section serving

variable {s : State} {w : RequestWord} {rest : List HostEvent} (h : Serves s w rest)
include h

theorem Serves.fetch_eq : fetch s = .accepted w := fetch_request h.serving h.wf h.head

/-- A word that decodes is performed. -/
theorem Serves.step_of_ok {i : Instr} (hd : decodeRequest w = .ok i) : step s = exec i s := by
  rw [step_of_accepted h.fetch_eq, hd]

/-- A word that does not decode is answered with its error. -/
theorem Serves.step_of_error {e : DecodeError} (hd : decodeRequest w = .error e) : step s = .next (raiseDecode s e) := by
  rw [step_of_accepted h.fetch_eq, hd]

/-- An error only ends the request: a response without an event, and the host's next events follow. -/
theorem Serves.raise_eq (st : Status) (info : BitVec 32) :
    raise s st info = { s with port := rest, history := ⟨st, info, [], []⟩ :: s.history } := by
  have hport : s.port.tail = rest := by rw [h.head, List.tail_cons]
  rw [← hport]
  rfl

theorem Serves.step_of_unassigned (ho : requestOp (opcodeOf w) = none) :
    step s = .next { s with port := rest, history := ⟨.errOpcode, 0, [], []⟩ :: s.history } := by
  rw [h.step_of_error (decodeRequest_of_none ho), raiseDecode, h.raise_eq]

end serving

/-- Every assigned opcode rejects a 1 under its reserved-zero mask. -/
theorem reservedBitsRejected_opcodeByte (op : RequestOp) : reservedBitsRejected (opcodeByte op) (reservedZeroMask op) := by
  intro s w rest h ho hz
  have hd : decodeRequest w = .error .reservedBits := by
    rw [decodeRequest_of_op (requestOp_eq_some.mpr ho), if_pos hz]
  rw [h.step_of_error hd, raiseDecode, h.raise_eq]

/-- Settles O11: the word is accepted, and then its instruction is all that the step does. -/
theorem stepRunsDecodedRequest : Obligations.StepRunsDecodedRequest :=
  fun _ _ _ _ h hd => h.step_of_ok hd

/-- Settles O13: the unassigned opcodes by their range, the assigned ones by their masks. -/
theorem illegalWordsRejected : Obligations.IllegalWordsRejected :=
  ⟨fun _ _ _ h ho => h.step_of_unassigned (requestOp_eq_none.mpr ho),
    reservedBitsRejected_opcodeByte .encode, reservedBitsRejected_opcodeByte .seqCurrent,
    reservedBitsRejected_opcodeByte .seqNext, reservedBitsRejected_opcodeByte .rxByte,
    reservedBitsRejected_opcodeByte .setTarget, reservedBitsRejected_opcodeByte .tick,
    reservedBitsRejected_opcodeByte .tickAll, reservedBitsRejected_opcodeByte .readChannel⟩

end Sys2Proof.Machine

/-! ### The codec: the checksum, ENCODE and DECODE (40_codec.md R100 to R106) -/

namespace Sys2Proof.Machine

/-- Only the low nibbles count, since 16 divides what a high nibble adds to the weighted sum. -/
theorem calcChecksum_toNat (c v1 v2 : Byte) (sq : Nibble) :
    (calcChecksum c v1 v2 sq).toNat =
      (c.toNat % 16 + 3 * (v1.toNat % 16) + 5 * (v2.toNat % 16) + 7 * sq.toNat) % 16 := by
  rw [calcChecksum, BitVec.toNat_ofNat]
  omega

/-- Settles O21: the sum over the low nibbles fixes the checksum. -/
theorem checksumIgnoresHighNibbles : Obligations.ChecksumIgnoresHighNibbles := by
  refine fun c v1 v2 sq => ⟨calcChecksum_toNat c v1 v2 sq, fun c' v1' v2' hc hv1 hv2 => BitVec.eq_of_toNat_eq ?_⟩
  rw [calcChecksum_toNat, calcChecksum_toNat, hc, hv1, hv2]

section exec

variable {c v1 v2 : Byte} {sq ck : Nibble} (s : State)

theorem exec_encode : exec (.encode c v1 v2 sq) s = .next (respond s .ok (frameWord c v1 v2 sq (calcChecksum c v1 v2 sq))) :=
  answersOnly_encode c v1 v2 sq s s rfl rfl rfl

theorem exec_decode_of_checks (h : checks c v1 v2 sq ck) :
    exec (.decode c v1 v2 sq ck) s = .next (respond s .ok (frameWord c v1 v2 sq 0)) :=
  answersOnly_decode_of_valid (checks_iff.mp h) s s rfl rfl rfl

theorem exec_decode_of_not_checks (h : ¬checks c v1 v2 sq ck) :
    exec (.decode c v1 v2 sq ck) s =
      .next (respond s .errChecksum (checksumErrorData ck (calcChecksum c v1 v2 sq))) :=
  answersOnly_decode_of_invalid (mt checks_iff.mpr h) s s rfl rfl rfl

end exec

/-- Settles O22: DECODE answers OK or ERR_CHECKSUM by validity, and the valid nibble is the computed one. -/
theorem exactlyOneChecksumIsValid : Obligations.ExactlyOneChecksumIsValid := by
  refine fun c v1 v2 sq s => ⟨fun ck => ⟨?accepted, fun h => ⟨_, _, exec_decode_of_checks s h, rfl, rfl⟩⟩,
    calcChecksum c v1 v2 sq, checks_iff.mpr rfl, fun _ => checks_iff.mp⟩
  rintro ⟨t, o, hexec, hhist, hok⟩
  by_contra h
  cases (exec_decode_of_not_checks s h).symm.trans hexec
  cases hhist
  cases hok

/-- A request word written out field by field is its opcode over its frame word. -/
theorem append_fields (opc c v1 v2 : Byte) (sq ck : Nibble) :
    opc ++ c ++ v1 ++ v2 ++ sq ++ ck = requestWord opc (frameWord c v1 v2 sq ck) := by
  apply BitVec.eq_of_getLsbD_eq
  intro i hi
  rw [getLsbD_requestWord, getLsbD_frameWord]
  simp only [BitVec.getLsbD_append]
  grind

/-- Settles O23: the encoding is the encoder's word, the answer holds the computed checksum, and the one error is that of the
reserved bits. -/
theorem encodeBuildsFrame : Obligations.EncodeBuildsFrame := by
  refine ⟨fun cmd v1 v2 seq => ?encoding, fun cmd v1 v2 seq s => ?answer, reservedBitsRejected_opcodeByte .encode⟩
  case encoding =>
    rw [append_fields]
    exact decodeRequest_of_encode (cfg := Config.reference) rfl
  case answer => exact ⟨calcChecksum cmd v1 v2 seq, checks_iff.mpr rfl, exec_encode s⟩

/-- Settles O24: the encoding is the encoder's word, and the answer follows validity. -/
theorem decodeChecksFrame : Obligations.DecodeChecksFrame := by
  refine ⟨fun c v1 v2 sq ck => ?encoding, fun c v1 v2 sq ck s => ⟨exec_decode_of_checks s, fun e he hne => ?mismatch⟩⟩
  case encoding =>
    rw [append_fields]
    exact decodeRequest_of_encode (cfg := Config.reference) rfl
  case mismatch =>
    obtain rfl := checks_iff.mp he
    exact exec_decode_of_not_checks s (mt checks_iff.mp hne)

/-- Settles O25: ENCODE's answer is valid and holds its operands, and the checksum computed from a valid frame's fields is the
frame's own. -/
theorem codecRoundTrip : Obligations.CodecRoundTrip := by
  refine ⟨fun cmd v1 v2 seq s t o hexec hhist u => ?decodeOfEncode, fun w s t o hw hexec hhist u => ?encodeOfDecode⟩
  case decodeOfEncode =>
    cases (exec_encode s).symm.trans hexec
    cases hhist
    simp only [byte0_frameWord, byte1_frameWord, byte2_frameWord, seqNibble_frameWord, checkNibble_frameWord]
    exact exec_decode_of_checks u (checks_iff.mpr rfl)
  case encodeOfDecode =>
    cases (exec_decode_of_checks s hw).symm.trans hexec
    cases hhist
    simp only [byte0_frameWord, byte1_frameWord, byte2_frameWord, seqNibble_frameWord]
    rw [exec_encode, ← checks_iff.mp hw, frameWord_fields]
    rfl

end Sys2Proof.Machine

/-! ### What the checksum detects (40_codec.md R103) -/

namespace Sys2Proof.Machine

theorem frameValid_frameWord {c v1 v2 : Byte} {sq ck : Nibble} :
    frameValid (frameWord c v1 v2 sq ck) ↔ checks c v1 v2 sq ck := by
  rw [frameValid, byte0_frameWord, byte1_frameWord, byte2_frameWord, seqNibble_frameWord, checkNibble_frameWord]

section replaced

variable {c v1 v2 : Byte} {sq ck : Nibble} (h : checks c v1 v2 sq ck)
include h

/-! A replaced payload byte is undetected exactly if its low nibble stays, since the weights 1, 3 and 5 are odd. -/

theorem checks_command_iff (b : Byte) : checks b v1 v2 sq ck ↔ b.toNat % 16 = c.toNat % 16 := by
  unfold checks at *; omega

theorem checks_value1_iff (b : Byte) : checks c b v2 sq ck ↔ b.toNat % 16 = v1.toNat % 16 := by
  unfold checks at *; omega

theorem checks_value2_iff (b : Byte) : checks c v1 b sq ck ↔ b.toNat % 16 = v2.toNat % 16 := by
  unfold checks at *; omega

/-- A replaced last byte is undetected exactly if the checksum has moved by seven times what the sequence number has. -/
theorem checks_lastByte_iff (s' k' : Nibble) :
    checks c v1 v2 s' k' ↔ ((k'.toNat : Int) - ck.toNat) % 16 = (7 * ((s'.toNat : Int) - sq.toNat)) % 16 := by
  unfold checks at *; omega

theorem checks_sequence_iff (s' : Nibble) : checks c v1 v2 s' ck ↔ s' = sq := by
  rw [← BitVec.toNat_inj]; unfold checks at *; omega

theorem checks_checksum_iff (k' : Nibble) : checks c v1 v2 sq k' ↔ k' = ck := by
  rw [← BitVec.toNat_inj]; unfold checks at *; omega

end replaced

/-! A flipped bit is flipped in its own field, at its place there, and nowhere else. -/

theorem xor_eq_frameWord (f g : FrameWord) :
    f ^^^ g = frameWord (byte0 f ^^^ g.extractLsb' 24 8) (byte1 f ^^^ g.extractLsb' 16 8) (byte2 f ^^^ g.extractLsb' 8 8)
      (seqNibble f ^^^ g.extractLsb' 4 4) (checkNibble f ^^^ g.extractLsb' 0 4) := by
  rw [← frameWord_fields (f ^^^ g)]
  simp only [byte0, byte1, byte2, seqNibble, checkNibble, BitVec.extractLsb'_xor]

theorem extractLsb'_bit_inside {k n j : Nat} (hw : k + n ≤ 32) (hk : k ≤ j) (hj : j < k + n) :
    (1#32 <<< j).extractLsb' k n = 1#n <<< (j - k) := by
  apply BitVec.eq_of_getLsbD_eq
  intro i hi
  simp only [BitVec.getLsbD_extractLsb', BitVec.getLsbD_shiftLeft, BitVec.getLsbD_one]
  grind

theorem extractLsb'_bit_outside {k n j : Nat} (h : j < k ∨ k + n ≤ j) : (1#32 <<< j).extractLsb' k n = 0#n := by
  apply BitVec.eq_of_getLsbD_eq
  intro i hi
  simp only [BitVec.getLsbD_extractLsb', BitVec.getLsbD_shiftLeft, BitVec.getLsbD_one]
  grind

theorem xor_eq_left_iff {n : Nat} {x m : BitVec n} : x ^^^ m = x ↔ m = 0#n := by
  simpa only [BitVec.xor_zero] using BitVec.xor_right_inj (x := m) (y := 0#n) x

/-- Flipping bit `i` of a byte keeps its low nibble exactly if the bit is in the high one. -/
theorem xor_bit_low_nibble (b : Byte) {i : Nat} (hi : i < 8) : (b ^^^ 1#8 <<< i).toNat % 16 = b.toNat % 16 ↔ 4 ≤ i := by
  have low (x : Byte) : x.toNat % 16 = (x.setWidth 4).toNat := (BitVec.toNat_setWidth 4 x).symm
  rw [low, low, BitVec.toNat_inj, BitVec.setWidth_xor, xor_eq_left_iff]
  decide +revert

theorem nibble_bit_ne_zero {i : Nat} (hi : i < 4) : 1#4 <<< i ≠ 0#4 := by
  decide +revert

/-- A flip replaces one field, so the low nibble of a payload byte, the sequence number and the checksum are protected. -/
theorem frameValid_flip_iff {f : FrameWord} (hf : frameValid f) {j : Nat} (hj : j < 32) :
    frameValid (f ^^^ (1#32 <<< j)) ↔ (12 ≤ j ∧ j ≤ 15) ∨ (20 ≤ j ∧ j ≤ 23) ∨ (28 ≤ j ∧ j ≤ 31) := by
  rw [xor_eq_frameWord, frameValid_frameWord]
  obtain h | h | h | h | h : j < 4 ∨ 4 ≤ j ∧ j < 8 ∨ 8 ≤ j ∧ j < 16 ∨ 16 ≤ j ∧ j < 24 ∨ 24 ≤ j := by omega
  all_goals simp (disch := omega) only [extractLsb'_bit_inside, extractLsb'_bit_outside, BitVec.xor_zero]
  · -- the checksum field
    rw [checks_checksum_iff hf, xor_eq_left_iff]
    exact iff_of_false (nibble_bit_ne_zero (by omega)) (by omega)
  · -- the sequence field
    rw [checks_sequence_iff hf, xor_eq_left_iff]
    exact iff_of_false (nibble_bit_ne_zero (by omega)) (by omega)
  · -- the value2 field
    rw [checks_value2_iff hf, xor_bit_low_nibble _ (by omega)]
    omega
  · -- the value1 field
    rw [checks_value1_iff hf, xor_bit_low_nibble _ (by omega)]
    omega
  · -- the command field
    rw [checks_command_iff hf, xor_bit_low_nibble _ (by omega)]
    omega

theorem byte3_toNat (f : FrameWord) : (byte3 f).toNat = 16 * (seqNibble f).toNat + (checkNibble f).toNat := by
  simp only [byte3, seqNibble, checkNibble, BitVec.extractLsb'_toNat, Nat.shiftRight_eq_div_pow]
  omega

/-- The other last bytes that match are one for each sequence number but the frame's own, `r` being the payload's share of the
weighted sum. -/
theorem length_matching_lastBytes (r s : Nat) (hs : s < 16) :
    ((List.range 256).filter fun b => decide (b ≠ 16 * s + (r + 7 * s) % 16 ∧ b % 16 = (r + 7 * (b / 16)) % 16)).length
      = 15 := by
  calc
    _ = ((Finset.range 256).filter fun b => b ≠ 16 * s + (r + 7 * s) % 16 ∧ b % 16 = (r + 7 * (b / 16)) % 16).card := rfl
    _ = ((Finset.range 16).erase s).card := by
      apply Finset.card_bij' (fun b _ => b / 16) (fun q _ => 16 * q + (r + 7 * q) % 16)
      case hi => intro b hb; simp only [Finset.mem_filter, Finset.mem_erase, Finset.mem_range] at hb ⊢; omega
      case hj => intro q hq; simp only [Finset.mem_filter, Finset.mem_erase, Finset.mem_range] at hq ⊢; omega
      case left_inv => intro b hb; simp only [Finset.mem_filter, Finset.mem_range] at hb; omega
      case right_inv => intro q _; omega
    _ = 15 := by
      rw [Finset.card_erase_of_mem (Finset.mem_range.mpr hs), Finset.card_range]

/-- Validity with the last byte written as one number, its high nibble the sequence number. -/
theorem frameValid_lastByte_iff (f : FrameWord) {b : Nat} (hb : b < 256) :
    frameValid (frameWord (byte0 f) (byte1 f) (byte2 f) (BitVec.ofNat 4 (b / 16)) (BitVec.ofNat 4 b)) ↔
      b % 16 = ((byte0 f).toNat + 3 * (byte1 f).toNat + 5 * (byte2 f).toNat + 7 * (b / 16)) % 16 := by
  rw [frameValid_frameWord, checks, BitVec.toNat_ofNat, BitVec.toNat_ofNat, Nat.mod_eq_of_lt (a := b / 16) (by omega)]

/-- Settles O26: a flip is a replacement of its field, and the last bytes that match are one for each sequence number. -/
theorem checksumDetection : Obligations.ChecksumDetection := by
  refine fun f hf => ⟨fun j => frameValid_flip_iff hf, fun b => ?payload, fun s' k' => ?lastByte, ?count⟩
  case payload =>
    simp only [frameValid_frameWord]
    exact ⟨checks_command_iff hf b, checks_value1_iff hf b, checks_value2_iff hf b⟩
  case lastByte => exact frameValid_frameWord.trans (checks_lastByte_iff hf s' k')
  case count =>
    rw [← length_matching_lastBytes ((byte0 f).toNat + 3 * (byte1 f).toNat + 5 * (byte2 f).toNat) (seqNibble f).toNat
      (seqNibble f).isLt]
    refine congrArg List.length (List.filter_congr fun b hb => decide_eq_decide.mpr ?_)
    rw [frameValid_lastByte_iff f (List.mem_range.mp hb), byte3_toNat, ← hf]

end Sys2Proof.Machine

/-! ### The sequence tracker (41_sequence.md R120 to R125) -/

namespace Sys2Proof.Machine

theorem seqSucc_toNat (q : Nibble) : (seqSucc q).toNat = (q.toNat + 1) % 16 := by
  rw [seqSucc, BitVec.toNat_ofNat]
  omega

/-- The wrap past 15 is that of a 4-bit sum. -/
theorem seqSucc_eq_add_one (q : Nibble) : seqSucc q = q + 1 :=
  BitVec.eq_of_toNat_eq (by rw [seqSucc_toNat, BitVec.toNat_add]; rfl)

theorem seqSucc_iterate_toNat (n : Nat) (q : Nibble) : (seqSucc^[n] q).toNat = (q.toNat + n) % 16 := by
  induction n generalizing q with
  | zero => exact (Nat.mod_eq_of_lt q.isLt).symm
  | succ n ih =>
    rw [Function.iterate_succ_apply, ih, seqSucc_toNat]
    omega

theorem exec_seqCurrent (s : State) : exec .seqCurrent s =
    .next { s with port := s.port.tail, history := ⟨.ok, BitVec.ofNat 32 s.seq.toNat, [], []⟩ :: s.history } := by
  rw [BitVec.ofNat_toNat]
  rfl

theorem exec_seqNext (s : State) : exec .seqNext s =
    .next { s with
      seq := seqSucc s.seq
      port := s.port.tail
      history := ⟨.ok, BitVec.ofNat 32 s.seq.toNat, [], []⟩ :: s.history } := by
  rw [BitVec.ofNat_toNat]
  rfl

/-- Settles O27: the encoding is the encoder's word, and the one error is that of the reserved bits. -/
theorem seqCurrentReads : Obligations.SeqCurrentReads :=
  ⟨decodeRequest_of_encode (cfg := Config.reference) (i := .seqCurrent) rfl, exec_seqCurrent,
    reservedBitsRejected_opcodeByte .seqCurrent⟩

/-- Settles O28: the encoding is the encoder's word, the value left is the successor, and the one error is that of the reserved
bits. -/
theorem seqNextReturnsThenAdvances : Obligations.SeqNextReturnsThenAdvances :=
  ⟨decodeRequest_of_encode (cfg := Config.reference) (i := .seqNext) rfl,
    fun s => ⟨seqSucc s.seq, seqSucc_toNat s.seq, exec_seqNext s⟩, reservedBitsRejected_opcodeByte .seqNext⟩

/-- SEQ_NEXT's answer where the values run from `x` on and `k` of them have been answered before. -/
def seqNextAnswer (x k : Nat) : Completion := ⟨.ok, BitVec.ofNat 32 ((x + k) % 16), [], []⟩

/-- After one advance, the answers are those of the values from the next on. -/
theorem seqNextAnswer_seqSucc (q : Nibble) : seqNextAnswer (seqSucc q).toNat = seqNextAnswer q.toNat ∘ Nat.succ := by
  funext k
  have hmod : ((q.toNat + 1) % 16 + k) % 16 = (q.toNat + (k + 1)) % 16 := by omega
  rw [Function.comp_apply, seqNextAnswer, seqNextAnswer, seqSucc_toNat, hmod]

/-- `n` SEQ_NEXT in a row: the first answers and advances, and the others run from the value it leaves. -/
theorem execAll_replicate_seqNext (n : Nat) (s : State) : ∃ t, execAll (List.replicate n .seqNext) s = .next t ∧
    t.seq = seqSucc^[n] s.seq ∧
    t.history = ((List.range n).map (seqNextAnswer s.seq.toNat)).reverse ++ s.history := by
  induction n generalizing s with
  | zero => exact ⟨s, rfl, rfl, rfl⟩
  | succ n ih =>
    have hfirst : (⟨.ok, BitVec.ofNat 32 s.seq.toNat, [], []⟩ : Completion) = seqNextAnswer s.seq.toNat 0 := by
      rw [seqNextAnswer, Nat.add_zero, Nat.mod_eq_of_lt s.seq.isLt]
    have hexec := exec_seqNext s
    rw [hfirst] at hexec
    obtain ⟨t, hrun, hseq, hhist⟩ := ih _
    refine ⟨t, (execAll_cons hexec _).trans hrun, hseq, hhist.trans ?_⟩
    rw [List.range_succ_eq_map, List.map_cons, List.map_map, List.reverse_cons, List.append_assoc, List.singleton_append,
      seqNextAnswer_seqSucc]

/-- Settles O29: `n` SEQ_NEXT in a row are an `n`-fold advance. -/
theorem seqNextWrapsModSixteen : Obligations.SeqNextWrapsModSixteen := by
  refine ⟨fun n s => ?requests, seqSucc_iterate_toNat⟩
  case requests =>
    obtain ⟨t, hrun, hseq, hhist⟩ := execAll_replicate_seqNext n s
    exact ⟨t, hrun, by rw [hseq, seqSucc_iterate_toNat], hhist⟩

end Sys2Proof.Machine

/-! ### Who advances the sequence value (41_sequence.md R123) -/

namespace Sys2Proof.Machine

theorem completesValidFrame_iff_of_carries {i : Instr} {s : State} {c v1 v2 : Byte} {sq ck : Nibble}
    (h : carries s.cfg i = some (c, v1, v2, sq, ck)) : completesValidFrame s i ↔ checks c v1 v2 sq ck := by
  refine ⟨?_, fun hck => .inl ⟨c, v1, v2, sq, ck, h, hck⟩⟩
  rintro (⟨_, _, _, _, _, hf, hck⟩ | ⟨b, rfl, -⟩)
  · cases h.symm.trans hf
    exact hck
  · cases h

theorem completesValidFrame_rxByte_iff {s : State} {b : Byte} :
    completesValidFrame s (.rxByte b) ↔ s.rxCount = 3 ∧ frameValid (s.rxBuf ++ b) := by
  refine ⟨?_, fun h => .inr ⟨b, rfl, h⟩⟩
  rintro (⟨_, _, _, _, _, hf, -⟩ | ⟨_, hb, h⟩)
  · cases hf
  · cases hb
    exact h

/-- An instruction that carries no frame whole and is not RX_BYTE completes none. -/
theorem not_completesValidFrame {i : Instr} {s : State} (hf : carries s.cfg i = none) (hb : ∀ b, i ≠ .rxByte b) :
    ¬completesValidFrame s i := by
  rintro (⟨_, _, _, _, _, hf', -⟩ | ⟨b, rfl, -⟩)
  · cases hf.symm.trans hf'
  · exact hb b rfl

/-- Every command rule leaves the sequence value. -/
theorem commandRule_seq (k : CommandClass) (c v1 v2 : Byte) (s : State) : (commandRule k c v1 v2 s).state.seq = s.seq := by
  rcases commandRule_state k c v1 v2 s with e | ⟨-, ch, -, e⟩ | ⟨-, -, e⟩ <;> rw [e] <;> rfl

/-- Processing a frame advances the sequence value if the frame is valid, and leaves it if not. -/
theorem processFields_seq (k : CommandClass) (c v1 v2 : Byte) (sq ck : Nibble) (s : State) :
    (checks c v1 v2 sq ck → (processFields (commandRule k) c v1 v2 sq ck s).seq = s.seq + 1) ∧
      (¬checks c v1 v2 sq ck → (processFields (commandRule k) c v1 v2 sq ck s).seq = s.seq) := by
  rw [checks_iff]
  constructor
  · intro h
    rw [processFields_of_valid _ c v1 v2 sq ck s h]
    exact seqSucc_eq_add_one s.seq
  · intro h
    rw [processFields_of_invalid _ c v1 v2 sq ck s h]
    rfl

/-- An instruction that delivers no frame, nor a byte of one, leaves the sequence value unless it is SEQ_NEXT. -/
theorem exec_seq_of_no_frame {i : Instr} {s t : State} (hf : carries s.cfg i = none) (hb : ∀ b, i ≠ .rxByte b)
    (hn : i ≠ .seqNext) (h : exec i s = .next t) : t.seq = s.seq := by
  cases i with
  | rxByte b => exact absurd rfl (hb b)
  | seqNext => exact absurd rfl hn
  | setTarget ch _ | tick ch | readChannel ch =>
    cases h
    rcases onChannel_cases s ch _ with e | ⟨k, e⟩ <;> rw [e] <;> rfl
  | decode c v1 v2 sq ck =>
    obtain ⟨o, e⟩ := exec_decode_finish c v1 v2 sq ck s
    cases e.symm.trans h
    rfl
  | encode | seqCurrent | tickAll => cases h; rfl
  | _ => cases hf

/-- What an instruction does to the sequence value, whichever way it delivers a frame. -/
theorem exec_seq {i : Instr} {s t : State} (h : exec i s = .next t) :
    ((i = .seqNext ∨ completesValidFrame s i) → t.seq = s.seq + 1) ∧
      (¬(i = .seqNext ∨ completesValidFrame s i) → t.seq = s.seq) := by
  cases hf : carries s.cfg i with
  | some f =>
    obtain ⟨c, v1, v2, sq, ck⟩ := f
    have hn : i ≠ .seqNext := by rintro rfl; cases hf
    rw [or_iff_right hn, completesValidFrame_iff_of_carries hf]
    cases (exec_of_carries hf).symm.trans h
    exact processFields_seq _ c v1 v2 sq ck s
  | none =>
    cases i with
    | seqNext =>
      cases (exec_seqNext s).symm.trans h
      exact ⟨fun _ => seqSucc_eq_add_one s.seq, fun hn => absurd (.inl rfl) hn⟩
    | rxByte b =>
      rw [or_iff_right nofun, completesValidFrame_rxByte_iff]
      by_cases hr : s.rxCount.toNat < 3
      · have h3 : s.rxCount ≠ 3 := by bv_omega
        cases (exec_rxByte_store b hr).symm.trans h
        exact ⟨fun hv => absurd hv.1 h3, fun _ => rfl⟩
      · have h3 : s.rxCount = 3 := by bv_omega
        rw [and_iff_right h3]
        cases (exec_rxByte_complete b hr).symm.trans h
        exact processFields_seq _ _ _ _ _ _ (setRx s 0 0)
    | _ =>
      have hkept := exec_seq_of_no_frame hf nofun nofun h
      exact ⟨fun ha => absurd ha (not_or_intro nofun (not_completesValidFrame hf nofun)), fun _ => hkept⟩

/-- The error of a word that decodes to no instruction leaves the sequence value. -/
theorem raiseDecode_seq (s : State) (e : DecodeError) : (raiseDecode s e).seq = s.seq := by
  cases e <;> rfl

/-- Settles O30: the instructions by `exec_seq`; any other step writes the sequence value only where reset is released, and a step
on a request either is its instruction or answers an error, which writes nothing. -/
theorem onlyValidFramesAndSeqNextAdvance : Obligations.OnlyValidFramesAndSeqNextAdvance := by
  refine ⟨fun i s t => exec_seq, fun s t h hne => ?step⟩
  case step =>
    rcases step_next_cases h with ⟨-, rfl⟩ | ⟨-, -, rfl⟩ | ⟨-, rfl⟩ | ⟨cfg, rest, hp, hport, -, rfl⟩ |
      ⟨w, rest, -, -, hp, hport, hw, -⟩
    case inl | inr.inl | inr.inr.inl => exact absurd rfl hne
    case inr.inr.inr.inl => exact .inl ⟨cfg, rest, hp, hport, rfl⟩
    case inr.inr.inr.inr =>
      have hs : Serves s w rest := ⟨hp, hw, hport⟩
      cases hd : decodeRequest w with
      | ok i =>
        have hexec := (hs.step_of_ok hd).symm.trans h
        exact .inr ⟨w, rest, i, hport, hd, not_not.mp fun hn => hne ((exec_seq hexec).2 hn)⟩
      | error e =>
        cases (hs.step_of_error hd).symm.trans h
        rw [raiseDecode_seq] at hne
        exact absurd rfl hne

end Sys2Proof.Machine

/-! ### No check of the inbound sequence number (41_sequence.md R125) -/

namespace Sys2Proof.Machine

/-- A valid frame's sequence and checksum nibbles are read by the check alone. -/
theorem processFields_eq_of_checks {c v1 v2 : Byte} {sq ck sq' ck' : Nibble} (rule : CommandRule) (s : State)
    (h : checks c v1 v2 sq ck) (h' : checks c v1 v2 sq' ck') :
    processFields rule c v1 v2 sq ck s = processFields rule c v1 v2 sq' ck' s := by
  rw [processFields_of_valid rule c v1 v2 sq ck s (checks_iff.mp h),
    processFields_of_valid rule c v1 v2 sq' ck' s (checks_iff.mp h')]

section completed

variable (buf : BitVec 24) (b : Byte)

/-! The first three bytes of a frame completed by RX_BYTE are those held in the buffer. -/

theorem byte0_append : byte0 (buf ++ b) = rxByteAt buf 0 := BitVec.extractLsb'_append_eq_of_le (by decide)

theorem byte1_append : byte1 (buf ++ b) = rxByteAt buf 1 := BitVec.extractLsb'_append_eq_of_le (by decide)

theorem byte2_append : byte2 (buf ++ b) = rxByteAt buf 2 := BitVec.extractLsb'_append_eq_of_le (by decide)

end completed

/-- Settles O31: two valid frames with the same first three bytes run the same rule on the same values. -/
theorem inboundSequenceIgnored : Obligations.InboundSequenceIgnored := by
  refine ⟨fun c v1 v2 sq ck sq' ck' s h h' => ?whole, fun b b' s hcount h h' => ?byteByByte⟩
  case whole => exact congrArg Host.Outcome.next (processFields_eq_of_checks _ s h h')
  case byteByByte =>
    have hr : ¬s.rxCount.toNat < 3 := by bv_omega
    rw [frameValid, byte0_append, byte1_append, byte2_append] at h h'
    rw [exec_rxByte_complete b hr, exec_rxByte_complete b' hr]
    simp only [byte0_append, byte1_append, byte2_append]
    exact congrArg Host.Outcome.next (processFields_eq_of_checks _ (setRx s 0 0) h h')

end Sys2Proof.Machine

/-! ### Delivered frames: what every command shares (42_dispatch.md R132 to R136) -/

namespace Sys2Proof.Machine

/-- The wire command decoded from a frame runs the rule of the frame's class. -/
theorem carriedClass_decodeFields (cfg : Config) (c v1 v2 : Byte) (sq ck : Nibble) :
    carriedClass cfg (decodeFields cfg c v1 v2 sq ck) = classify cfg c := by
  unfold decodeFields classify
  by_cases hhead : cfg.opcEstablish.head? = some c
  · rw [if_pos hhead, if_pos (List.mem_of_head? hhead)]; rfl
  · rw [if_neg hhead]; split_ifs <;> rfl

/-- PROCESS_FRAME runs the wire command that its fields decode to. -/
theorem exec_processFrame (c v1 v2 : Byte) (sq ck : Nibble) (s : State) :
    exec (.processFrame c v1 v2 sq ck) s = exec (decodeFields s.cfg c v1 v2 sq ck) s := by
  obtain ⟨-, hf, -⟩ := decodeFields_spec s.cfg c v1 v2 sq ck
  rw [exec_of_carries hf, carriedClass_decodeFields]
  rfl

/-- Settles O12: the request word is the encoder's, and PROCESS_FRAME runs the decoded command. -/
theorem processFrameRunsWireCommand : Obligations.ProcessFrameRunsWireCommand := by
  intro s f
  have hexec := exec_processFrame (byte0 f) (byte1 f) (byte2 f) (seqNibble f) (checkNibble f) s
  refine ⟨hexec, fun rest h => ?step⟩
  case step =>
    have hencode : encode s.cfg (.processFrame (byte0 f) (byte1 f) (byte2 f) (seqNibble f) (checkNibble f)) =
        .request (0x06#8 ++ f) := congrArg (Encoded.request ∘ processFrameRequest) (frameWord_fields f)
    exact (h.step_of_ok (decodeRequest_of_encode hencode)).trans hexec

/-- Under distinct command bytes, PROCESS_FRAME of a well-formed wire command's frame is that wire command. -/
theorem exec_processFrame_of_encode {i : Instr} {s : State} {c v1 v2 : Byte} {sq ck : Nibble} (hw : s.cfg.wf)
    (hi : i.wf s.cfg = true) (h : encode s.cfg i = .frame (frameWord c v1 v2 sq ck)) :
    exec (.processFrame c v1 v2 sq ck) s = exec i s := by
  obtain ⟨-, -, -, -, -, hdistinct, -⟩ := hw
  rw [exec_processFrame, ← decodeFrame_frameWord, decodeFrame_of_encode hdistinct hi h]

/-- A command rule writes at most the targets and the camera select. -/
theorem commandRule_keeps (k : CommandClass) (c v1 v2 : Byte) (s : State) :
    ∃ tgt camSel, (commandRule k c v1 v2 s).state = { s with tgt := tgt, camSel := camSel } := by
  rcases commandRule_state k c v1 v2 s with e | ⟨-, ch, -, e⟩ | ⟨-, -, e⟩ <;> exact ⟨_, _, e⟩

/-- A reply frame is the valid frame of its triple. -/
theorem isReply_replyFrame (a : Reply) (q : Nibble) : isReply (replyFrame a q) a.code a.value1 a.value2 q :=
  ⟨byte0_frameWord .., byte1_frameWord .., byte2_frameWord .., seqNibble_frameWord ..,
    frameValid_frameWord.mpr (checks_iff.mpr rfl)⟩

section carried

variable {i : Instr} {s : State} {c v1 v2 : Byte} {sq ck : Nibble} (hf : carries s.cfg i = some (c, v1, v2, sq, ck))
include hf

/-- An invalid frame is answered with ERR_CHECKSUM; no rule runs. -/
theorem exec_of_not_checks (h : ¬checks c v1 v2 sq ck) :
    exec i s = .next (raise s .errChecksum (checksumErrorData ck (calcChecksum c v1 v2 sq))) := by
  rw [exec_of_carries hf, processFields_of_invalid _ c v1 v2 sq ck s (mt checks_iff.mpr h)]

/-- A valid frame runs the rule of its class and completes. -/
theorem exec_of_checks (h : checks c v1 v2 sq ck) :
    exec i s = .next (completeFrame (commandRule (carriedClass s.cfg i) c v1 v2 s) s.seq) := by
  rw [exec_of_carries hf, processFields_of_valid _ c v1 v2 sq ck s (checks_iff.mp h)]

/-- A valid frame whose rule gives a reply is answered OK_TX with it, stamped with the sequence value before the advance. -/
theorem exec_of_reply (h : checks c v1 v2 sq ck) {u : State} {a : Reply}
    (hr : commandRule (carriedClass s.cfg i) c v1 v2 s = ⟨u, some a, []⟩) :
    ∃ w, isReply w a.code a.value1 a.value2 s.seq ∧ exec i s =
      .next { u with seq := s.seq + 1, port := u.port.tail, history := ⟨.okTx, w, [w], []⟩ :: u.history } := by
  refine ⟨replyFrame a s.seq, isReply_replyFrame a s.seq, ?_⟩
  rw [exec_of_checks hf h, hr, ← seqSucc_eq_add_one]
  rfl

/-- A valid frame whose rule gives no reply is answered OK with data 0, and its blink request is emitted. -/
theorem exec_of_no_reply (h : checks c v1 v2 sq ck) {u : State} {blink : List Byte}
    (hr : commandRule (carriedClass s.cfg i) c v1 v2 s = ⟨u, none, blink⟩) :
    exec i s = .next { u with seq := s.seq + 1, port := u.port.tail, history := ⟨.ok, 0, [], blink⟩ :: u.history } := by
  rw [exec_of_checks hf h, hr, ← seqSucc_eq_add_one]
  rfl

end carried

/-- Settles O34: the expected nibble is the computed one, and an error only ends the request. -/
theorem invalidFrameDropped : Obligations.InvalidFrameDropped := by
  intro i s c v1 v2 sq ck e hf he hne
  obtain rfl := checks_iff.mp he
  exact exec_of_not_checks hf (mt checks_iff.mp hne)

/-- Settles O35: the rule of the frame's class writes at most targets and the camera select, and the answer follows its reply. -/
theorem validFrameCompletes : Obligations.ValidFrameCompletes := by
  intro i s c v1 v2 sq ck hf hck
  have hevents := commandRule_events (carriedClass s.cfg i) c v1 v2 s
  obtain ⟨tgt, camSel, hstate⟩ := commandRule_keeps (carriedClass s.cfg i) c v1 v2 s
  cases hr : commandRule (carriedClass s.cfg i) c v1 v2 s with
  | mk u reply blink =>
    rw [hr] at hevents hstate
    obtain rfl : u = { s with tgt := tgt, camSel := camSel } := hstate
    cases reply with
    | some a =>
      obtain rfl : blink = [] := hevents.resolve_right fun h => nomatch h.1
      obtain ⟨w, ⟨-, -, -, hstamp, hvalid⟩, hexec⟩ := exec_of_reply hf hck hr
      exact ⟨_, _, hexec, rfl, rfl, rfl, rfl, rfl, rfl, rfl, rfl, .inl ⟨rfl, rfl, w, rfl, rfl, hstamp, hvalid⟩⟩
    | none =>
      exact ⟨_, _, exec_of_no_reply hf hck hr, rfl, rfl, rfl, rfl, rfl, rfl, rfl, rfl, .inr ⟨rfl, rfl, rfl⟩⟩

end Sys2Proof.Machine

/-! ### The wire commands, one by one (42_dispatch.md R137, R140 to R151) -/

namespace Sys2Proof.Machine

theorem classify_of_mem_opcEstablish {cfg : Config} {c : Byte} (h : c ∈ cfg.opcEstablish) : classify cfg c = .establish :=
  if_pos h

/-- A byte that is none of the inbound commands is of the class of unrecognized ones. -/
theorem classify_of_not_inbound {cfg : Config} {c : Byte} (hestablish : c ∉ cfg.opcEstablish) (hmotor : c ≠ cfg.opcSetMotor)
    (hcamera : c ≠ cfg.opcSetCamera) (hsensor : c ≠ cfg.opcReadSensor) (hblink : c ≠ cfg.opcBlink) :
    classify cfg c = .unrecognized := by
  rw [classify, if_neg hestablish, if_neg hmotor, if_neg hcamera, if_neg hsensor, if_neg hblink]

/-- Settles O36: the three ways of delivery carry the same frame, of class ESTABLISH. -/
theorem establishAnswersMagic : Obligations.EstablishAnswersMagic := by
  intro i c v1 v2 sq ck s hi hck
  obtain ⟨hf, hk⟩ : carries s.cfg i = some (c, v1, v2, sq, ck) ∧ carriedClass s.cfg i = .establish := by
    rcases hi with rfl | rfl | ⟨hc, rfl⟩
    · exact ⟨rfl, rfl⟩
    · exact ⟨rfl, rfl⟩
    · exact ⟨rfl, classify_of_mem_opcEstablish hc⟩
  refine ⟨fun hmagic => ?echo, fun hmagic => ?silence⟩
  case echo =>
    exact exec_of_reply hf hck (a := ⟨c, v1, v2⟩) (by rw [hk, commandRule, establishRule, if_pos hmagic])
  case silence =>
    exact exec_of_no_reply hf hck (by rw [hk, commandRule, establishRule, if_neg hmagic])

/-- Settles O41: the four ways of delivery carry the same frame, of class UNRECOGNIZED. -/
theorem unrecognizedAnswersErrorAck : Obligations.UnrecognizedAnswersErrorAck := by
  intro i c v1 v2 sq ck s hi hck
  obtain ⟨hf, hk⟩ : carries s.cfg i = some (c, v1, v2, sq, ck) ∧ carriedClass s.cfg i = .unrecognized := by
    rcases hi with rfl | ⟨rfl, rfl⟩ | ⟨rfl, rfl⟩ | ⟨hestablish, hmotor, hcamera, hsensor, hblink, rfl⟩
    · exact ⟨rfl, rfl⟩
    · exact ⟨rfl, rfl⟩
    · exact ⟨rfl, rfl⟩
    · exact ⟨rfl, classify_of_not_inbound hestablish hmotor hcamera hsensor hblink⟩
  exact exec_of_reply hf hck (a := errorAckReply s.cfg c v1) (by rw [hk]; rfl)

/-- Settles O40: READ_SENSOR's rule is the error ack. -/
theorem readSensorAnswersErrorAck : Obligations.ReadSensorAnswersErrorAck := fun v1 _ _ _ s hw hck =>
  ⟨exec_processFrame_of_encode hw rfl rfl, exec_of_reply rfl hck (a := errorAckReply s.cfg s.cfg.opcReadSensor v1) rfl⟩

/-- Settles O39: BLINK's rule is its blink request. -/
theorem blinkEmitsDuration : Obligations.BlinkEmitsDuration := fun _ _ _ _ _ hw hck =>
  ⟨exec_processFrame_of_encode hw rfl rfl, exec_of_no_reply rfl hck rfl⟩

/-- Settles O38: an index of at most 7 fits the camera select's three bits. -/
theorem setCameraSelects : Obligations.SetCameraSelects := by
  intro v1 v2 sq ck s hw hck
  refine ⟨exec_processFrame_of_encode hw rfl rfl, fun hv => ⟨v1.extractLsb' 0 3, ?index, ?selected⟩, fun hv => ?ignored⟩
  case index => rw [BitVec.extractLsb'_toNat]; omega
  case selected =>
    exact exec_of_no_reply rfl hck (u := setCam s (v1.extractLsb' 0 3))
      (by rw [carriedClass, commandRule, setCameraRule, if_pos hv])
  case ignored =>
    exact exec_of_no_reply rfl hck (by rw [carriedClass, commandRule, setCameraRule, if_neg (by omega)])

/-- Processing a frame leaves every target, or it is a valid frame of class SET_MOTOR and leaves every other channel's target. -/
theorem processFields_tgt (k : CommandClass) (c v1 v2 : Byte) (sq ck : Nibble) (s : State) :
    (processFields (commandRule k) c v1 v2 sq ck s).tgt = s.tgt ∨
      k = .setMotor ∧ v1.toNat ≤ 5 ∧ checks c v1 v2 sq ck ∧
        ∀ j : Channel, j.val ≠ v1.toNat → (processFields (commandRule k) c v1 v2 sq ck s).tgt[j] = s.tgt[j] := by
  by_cases h : ck = calcChecksum c v1 v2 sq
  · rw [processFields_of_valid _ c v1 v2 sq ck s h, completeFrame_tgt]
    rcases commandRule_state k c v1 v2 s with e | ⟨hk, ch, hch, e⟩ | ⟨-, -, e⟩ <;> rw [e]
    · exact .inl rfl
    · refine .inr ⟨hk, by omega, checks_iff.mpr h, fun j hj => ?_⟩
      have hne : j ≠ ch := by rintro rfl; exact hj hch.symm
      rw [setTgt_tgt, getElem_set_channel, if_neg hne]
    · exact .inl rfl
  · rw [processFields_of_invalid _ c v1 v2 sq ck s h]
    exact .inl rfl

/-- Settles O42: no frame moves a present value, and only a valid one of class SET_MOTOR writes a target. -/
theorem framesChangeOneTargetAtMost : Obligations.FramesChangeOneTargetAtMost := by
  intro c v1 v2 sq ck s t h
  cases h
  refine ⟨processFields_cur _ c v1 v2 sq ck s, ?_⟩
  exact (processFields_tgt _ c v1 v2 sq ck s).imp_right fun ⟨hk, hrest⟩ => ⟨classify_eq_setMotor hk, hrest⟩

/-- Settles O43: the rule of ESTABLISH writes nothing, and an invalid frame runs no rule. -/
theorem handshakeLeavesNoState : Obligations.HandshakeLeavesNoState := by
  intro c v1 v2 sq ck s t hc h
  by_cases hck : checks c v1 v2 sq ck
  · cases (exec_of_checks rfl hck).symm.trans h
    rw [carriedClass, classify_of_mem_opcEstablish hc]
    rfl
  · cases (exec_of_not_checks rfl hck).symm.trans h
    rfl

end Sys2Proof.Machine

/-! ### Frame reception (42_dispatch.md R130, R131, 10_state.md R29, 70_reset_and_hazards.md R236) -/

namespace Sys2Proof.Machine

/-- The state with the same registers but another receive buffer, other pending events and another record of outputs: all that
frame processing passes over. -/
def inContext (s : State) (n : BitVec 2) (buf : BitVec 24) (port : List HostEvent) (history : List Completion) : State :=
  { s with rxCount := n, rxBuf := buf, port := port, history := history }

/-- A command rule neither reads nor writes the context. -/
theorem commandRule_inContext (k : CommandClass) (c v1 v2 : Byte) (s : State) (n : BitVec 2) (buf : BitVec 24)
    (port : List HostEvent) (history : List Completion) :
    commandRule k c v1 v2 (inContext s n buf port history) =
      { commandRule k c v1 v2 s with state := inContext (commandRule k c v1 v2 s).state n buf port history } := by
  cases k with
  | setMotor =>
    simp only [commandRule, setMotorRule]
    cases channelOf v1 <;> rfl
  | setCamera =>
    simp only [commandRule, setCameraRule]
    split <;> rfl
  | establish | readSensor | blink | unrecognized => rfl

/-- Processing a frame does the same in every context: it ends the request with the same completion and leaves the buffer. -/
theorem processFields_inContext (k : CommandClass) (c v1 v2 : Byte) (sq ck : Nibble) (s : State) :
    ∃ o, ∀ n buf port history, processFields (commandRule k) c v1 v2 sq ck (inContext s n buf port history) =
      inContext (processFields (commandRule k) c v1 v2 sq ck s) n buf port.tail (o :: history) := by
  by_cases h : ck = calcChecksum c v1 v2 sq
  · refine ⟨frameCompletion (commandRule k c v1 v2 s) s.seq, fun n buf port history => ?_⟩
    rw [processFields_of_valid _ c v1 v2 sq ck _ h, processFields_of_valid _ c v1 v2 sq ck _ h, commandRule_inContext]
    rfl
  · refine ⟨⟨.errChecksum, checksumErrorData ck (calcChecksum c v1 v2 sq), [], []⟩, fun n buf port history => ?_⟩
    rw [processFields_of_invalid _ c v1 v2 sq ck _ h, processFields_of_invalid _ c v1 v2 sq ck _ h]
    rfl

/-- The state is in its own context, so there a processed frame leaves the buffer and ends the request. -/
theorem processFrame_inContext (c v1 v2 : Byte) (sq ck : Nibble) (s : State) :
    ∃ o, processFrame c v1 v2 sq ck s =
        inContext (processFrame c v1 v2 sq ck s) s.rxCount s.rxBuf s.port.tail (o :: s.history) ∧
      ∀ n buf port history, processFrame c v1 v2 sq ck (inContext s n buf port history) =
        inContext (processFrame c v1 v2 sq ck s) n buf port.tail (o :: history) := by
  obtain ⟨o, hcontext⟩ := processFields_inContext (classify s.cfg c) c v1 v2 sq ck s
  exact ⟨o, hcontext s.rxCount s.rxBuf s.port s.history, hcontext⟩

/-- Processing a frame leaves the receive buffer. -/
theorem processFields_rx (k : CommandClass) (c v1 v2 : Byte) (sq ck : Nibble) (s : State) :
    (processFields (commandRule k) c v1 v2 sq ck s).rxCount = s.rxCount ∧
      (processFields (commandRule k) c v1 v2 sq ck s).rxBuf = s.rxBuf := by
  obtain ⟨u, o, e, -, rfl | ⟨w, rfl, rfl | ⟨j, raw, rfl⟩ | ⟨x, rfl⟩⟩⟩ := processFields_form k c v1 v2 sq ck s <;>
    rw [e] <;> exact ⟨rfl, rfl⟩

/-- Settles O45: a frame is processed past the buffer, and no other instruction but RX_BYTE writes it. -/
theorem partialFrameSurvivesOtherRequests : Obligations.PartialFrameSurvivesOtherRequests := by
  intro i s t hb h
  cases hf : carries s.cfg i with
  | some f =>
    obtain ⟨c, v1, v2, sq, ck⟩ := f
    cases (exec_of_carries hf).symm.trans h
    exact processFields_rx _ c v1 v2 sq ck s
  | none =>
    cases i with
    | rxByte b => exact absurd rfl (hb b)
    | setTarget ch _ | tick ch | readChannel ch =>
      cases h
      rcases onChannel_cases s ch _ with e | ⟨k, e⟩ <;> rw [e] <;> exact ⟨rfl, rfl⟩
    | decode c v1 v2 sq ck =>
      obtain ⟨o, e⟩ := exec_decode_finish c v1 v2 sq ck s
      cases e.symm.trans h
      exact ⟨rfl, rfl⟩
    | encode | seqCurrent | seqNext | tickAll => cases h; exact ⟨rfl, rfl⟩
    | _ => cases hf

/-- Byte `n` of the buffer is bits `23-8n .. 16-8n`, and storing it leaves the other bits. -/
theorem getLsbD_putRxByte (buf : BitVec 24) {n : BitVec 2} (b : Byte) {j : Nat} (hn : n.toNat < 3) (hj : j < 24) :
    (putRxByte buf n b).getLsbD j =
      if 16 - 8 * n.toNat ≤ j ∧ j ≤ 23 - 8 * n.toNat then b.getLsbD (j - (16 - 8 * n.toNat)) else buf.getLsbD j := by
  unfold putRxByte
  split
  case h_1 h | h_2 h | h_3 h =>
    rw [h]
    simp only [BitVec.getLsbD_append, BitVec.getLsbD_extractLsb']
    grind
  case h_4 h0 h1 h2 => rw [imp_false] at h0 h1 h2; omega

/-- Three bytes stored one after another fill the buffer, whatever it held. -/
theorem putRxByte_three (buf : BitVec 24) (b0 b1 b2 : Byte) :
    putRxByte (putRxByte (putRxByte buf 0 b0) 1 b1) 2 b2 = b0 ++ b1 ++ b2 := by
  apply BitVec.eq_of_getLsbD_eq
  intro j hj
  rw [getLsbD_putRxByte _ _ (by decide) hj, getLsbD_putRxByte _ _ (by decide) hj, getLsbD_putRxByte _ _ (by decide) hj]
  simp only [BitVec.getLsbD_append]
  grind

/-- The request word of RX_BYTE, written out field by field. -/
theorem append_rxByte (b : Byte) : 0x05#8 ++ 0#24 ++ b = requestWord 0x05 (bytesWord 0 0 0 b) := by
  apply BitVec.eq_of_getLsbD_eq
  intro i hi
  rw [getLsbD_requestWord, getLsbD_bytesWord]
  simp only [BitVec.getLsbD_append]
  grind

/-- A fourth RX_BYTE does what PROCESS_FRAME of the completed frame does with the buffer cleared. -/
theorem exec_rxByte_fourth {s : State} {b : Byte} {f : FrameWord} (h3 : s.rxCount = 3) (hf : s.rxBuf ++ b = f) :
    exec (.rxByte b) s =
      exec (.processFrame (byte0 f) (byte1 f) (byte2 f) (seqNibble f) (checkNibble f)) (setRx s 0 0) := by
  subst hf
  exact exec_rxByte_complete b (by bv_omega)

/-- Settles O32: the encoding is the encoder's word, a byte before the fourth is stored, and the fourth completes the frame. -/
theorem rxByteAssemblesFrame : Obligations.RxByteAssemblesFrame := by
  refine ⟨fun b => ?encoding, fun b s n hn hlt => ?store, fun b s f h3 hf => exec_rxByte_fourth h3 hf.symm,
    reservedBitsRejected_opcodeByte .rxByte⟩
  case encoding =>
    rw [append_rxByte]
    exact decodeRequest_of_encode (cfg := Config.reference) rfl
  case store =>
    subst hn
    exact ⟨s.rxCount + 1, putRxByte s.rxBuf s.rxCount b, by bv_omega, fun j hj => getLsbD_putRxByte _ b hlt hj,
      exec_rxByte_store b hlt⟩

/-- An RX_BYTE that finds `n` bytes stores its own behind them and answers the new count. -/
theorem exec_rxByte_inContext {s : State} {n : BitVec 2} (b : Byte) (h : n.toNat < 3) (buf : BitVec 24)
    (port : List HostEvent) (history : List Completion) :
    exec (.rxByte b) (inContext s n buf port history) =
      .next (inContext s (n + 1) (putRxByte buf n b) port.tail
        (⟨.ok, BitVec.ofNat 32 (n.toNat + 1), [], []⟩ :: history)) :=
  exec_rxByte_store b h

/-- Three RX_BYTE from an empty buffer fill it and answer the counts 1, 2 and 3. -/
theorem execAll_three_rxBytes {s : State} (h : s.rxCount = 0) (b0 b1 b2 : Byte) (is : List Instr) :
    execAll (.rxByte b0 :: .rxByte b1 :: .rxByte b2 :: is) s =
      execAll is (inContext s 3 (b0 ++ b1 ++ b2) s.port.tail.tail.tail
        (⟨.ok, 3, [], []⟩ :: ⟨.ok, 2, [], []⟩ :: ⟨.ok, 1, [], []⟩ :: s.history)) := by
  have hs : s = inContext s 0 s.rxBuf s.port s.history := by rw [← h]; rfl
  rw [← putRxByte_three s.rxBuf]
  conv_lhs => rw [hs]
  exact (execAll_cons (exec_rxByte_inContext b0 (by decide) ..) _).trans <|
    (execAll_cons (exec_rxByte_inContext b1 (by decide) ..) _).trans <|
    execAll_cons (exec_rxByte_inContext b2 (by decide) ..) is

/-- Settles O33: the fourth byte processes the whole frame in another context, and so does PROCESS_FRAME with another buffer. -/
theorem fourBytesActAsOneFrame : Obligations.FourBytesActAsOneFrame := by
  refine ⟨fun f s h0 => ?delivery, fun c v1 v2 sq ck n buf s u h => ?independence⟩
  case delivery =>
    obtain ⟨o, hown, hcontext⟩ := processFrame_inContext (byte0 f) (byte1 f) (byte2 f) (seqNibble f) (checkNibble f) s
    have hhist := congrArg State.history hown
    have hport : s.port.drop 4 = s.port.tail.tail.tail.tail := by simp only [← List.drop_one, List.drop_drop]
    have hfourth := fun port history =>
      exec_rxByte_fourth (s := inContext s 3 (byte0 f ++ byte1 f ++ byte2 f) port history) rfl (bytesWord_bytes f)
    refine ⟨_, _, (execAll_three_rxBytes h0 ..).trans
      (execAll_cons ((hfourth _ _).trans (congrArg Host.Outcome.next (hcontext 0 0 ..))) []), rfl, ?_⟩
    rw [hhist, hport]
    rfl
  case independence =>
    obtain ⟨o, hown, hcontext⟩ := processFrame_inContext c v1 v2 sq ck s
    cases h
    refine ⟨(congrArg State.rxCount hown).trans rfl, (congrArg State.rxBuf hown).trans rfl, congrArg Host.Outcome.next ?_⟩
    exact (hcontext n buf s.port s.history).trans (congrArg (setRx · n buf) hown.symm)

end Sys2Proof.Machine

/-! ### The governor's functions and SET_MOTOR (43_governor.md R171 to R175, 42_dispatch.md R142) -/

namespace Sys2Proof.Machine

/-- Between ordered bounds, the clamp is the larger of the lower bound and the smaller of the value and the upper bound. -/
theorem clampInt_eq {x lo hi : Int} (h : lo ≤ hi) : clampInt x lo hi = max lo (min x hi) := by
  unfold clampInt
  split_ifs <;> omega

/-- The clamp band fits the byte, so the clamped raw value is not cut (43_governor.md R171). -/
theorem govClamp_toNat {cfg : Config} (hw : cfg.wf) (raw : Byte) : ((govClamp cfg raw).toNat : Int) =
    max ((cfg.rawCenter : Int) - cfg.rawHalfBand) (min raw.toNat ((cfg.rawCenter : Int) + cfg.rawHalfBand)) := by
  obtain ⟨⟨hlow, hhigh⟩, -⟩ := hw
  rw [govClamp, clampInt_eq (by omega), BitVec.toNat_ofInt]
  omega

/-- In the clamp band the scaled value lies at most `SPAN` from the centre (43_governor.md R172, R175). -/
theorem govScale_natAbs_le {cfg : Config} {a : Byte} (h : ((a.toNat : Int) - cfg.rawCenter).natAbs ≤ cfg.rawHalfBand) :
    (govScale cfg a - cfg.centerUs).natAbs ≤ cfg.span := by
  rw [govScale, add_sub_cancel_left, Int.natAbs_tdiv, Int.natAbs_mul, Int.natAbs_natCast, Int.natAbs_natCast]
  exact Nat.div_le_div_right (Nat.mul_le_mul_right _ h)

/-- The governor's result lies at most `SPAN` from the centre (43_governor.md R175). -/
theorem gov_natAbs_le {cfg : Config} (hw : cfg.wf) (raw : Byte) : (gov cfg raw - cfg.centerUs).natAbs ≤ cfg.span := by
  have hclamp := govClamp_toNat hw raw
  unfold gov govDeadband
  split_ifs
  · simp
  · exact govScale_natAbs_le (by omega)

/-- The governor's interval fits the target register, so the governor's result is not cut (43_governor.md R174). -/
theorem govTarget_toNat {cfg : Config} (hw : cfg.wf) (raw : Byte) : ((govTarget cfg raw).toNat : Int) = gov cfg raw := by
  have hspan := gov_natAbs_le hw raw
  obtain ⟨-, ⟨hmin, hmax⟩, -, -, hreg, -⟩ := hw
  rw [govTarget, BitVec.toNat_ofInt]
  omega

/-- The machine's clamped raw value and target are those of the governor's formulas (43_governor.md R171 to R174). -/
theorem governedTo_govTarget {cfg : Config} (hw : cfg.wf) (raw : Byte) :
    governedTo cfg raw (govClamp cfg raw) (govTarget cfg raw) := by
  refine ⟨govClamp_toNat hw raw, ?_⟩
  rw [govTarget_toNat hw, gov, govDeadband, Int.abs_eq_natAbs]
  simp only [Nat.cast_le]
  rfl

/-- Settles O37: SET_MOTOR's rule governs an existing channel, and gives the error ack for any other. -/
theorem setMotorCommandsChannel : Obligations.SetMotorCommandsChannel := by
  intro v1 v2 sq ck s hw hck
  refine ⟨exec_processFrame_of_encode hw rfl rfl, fun k hk => ⟨govClamp s.cfg v2, govTarget s.cfg v2, ?motorAck⟩,
    fun hv => ?errorAck⟩
  case motorAck =>
    have hch : channelOf v1 = some k := channelOf_eq_some.mpr hk
    obtain ⟨w, hreply, hexec⟩ := exec_of_reply (i := .setMotor v1 v2 sq ck) rfl hck (u := setTgt s k (govTarget s.cfg v2))
      (a := motorAckReply s.cfg v1 v2) (by simp only [carriedClass, commandRule, setMotorRule, hch])
    exact ⟨w, governedTo_govTarget hw v2, hreply, hexec⟩
  case errorAck =>
    have hch : channelOf v1 = none := channelOf_of_invalid hv
    exact exec_of_reply rfl hck (u := s) (a := errorAckReply s.cfg s.cfg.opcSetMotor v1)
      (by simp only [carriedClass, commandRule, setMotorRule, hch])

end Sys2Proof.Machine

/-! ### The invariant of every run (43_governor.md R185, 10_state.md R29) -/

namespace Sys2Proof.Machine

/-- Under a well-formed configuration the centre fits the register, and it lies in the governor's interval. -/
theorem inSpan_center {cfg : Config} (hw : cfg.wf) : inSpan cfg (BitVec.ofNat 16 cfg.centerUs) := by
  obtain ⟨-, -, -, -, -, -, hcenter, -⟩ := hw
  rw [inSpan, BitVec.toNat_ofNat, Nat.mod_eq_of_lt (by omega)]
  omega

theorem inSpan_govTarget {cfg : Config} (hw : cfg.wf) (raw : Byte) : inSpan cfg (govTarget cfg raw) := by
  have hspan := gov_natAbs_le hw raw
  rw [inSpan, govTarget_toNat hw]
  omega

/-- The slew step never passes the target, in the registers as over the integers (43_governor.md R177). -/
theorem tickStep_between (cfg : Config) (cur tgt : Pulse) :
    min cur.toNat tgt.toNat ≤ (tickStep cfg cur tgt).toNat ∧ (tickStep cfg cur tgt).toNat ≤ max cur.toNat tgt.toNat := by
  have hbetween := tickStepInt_between cfg.stepUs cur.toNat tgt.toNat (Int.natCast_nonneg _)
  rw [← tickStep_toNat] at hbetween
  omega

/-- The slew step is between the present value and the target, so it keeps every interval that holds both. -/
theorem inSpan_tickStep {cfg : Config} {cur tgt : Pulse} (hcur : inSpan cfg cur) (htgt : inSpan cfg tgt) :
    inSpan cfg (tickStep cfg cur tgt) := by
  have hbetween := tickStep_between cfg cur tgt
  omega

/-- Storing byte `n` writes none of the bytes after it. -/
theorem rxByteAt_putRxByte_of_lt (buf : BitVec 24) {n : BitVec 2} (b : Byte) {k : Fin 3} (h : n.toNat < k.val) :
    rxByteAt (putRxByte buf n b) k = rxByteAt buf k := by
  apply BitVec.eq_of_getLsbD_eq
  intro i hi
  rw [BitVec.getLsbD_extractLsb', BitVec.getLsbD_extractLsb', getLsbD_putRxByte buf b (by omega) (by omega),
    if_neg (by omega)]

/-- A received byte is counted, so the bytes not yet received stay 0. -/
theorem rxClean_store {s : State} (b : Byte) (hr : s.rxCount.toNat < 3) (h : rxClean s) :
    rxClean (setRx s (s.rxCount + 1) (putRxByte s.rxBuf s.rxCount b)) := by
  intro k hk
  have hlt : s.rxCount.toNat < k.val := by rw [setRx_rxCount] at hk; bv_omega
  exact (rxByteAt_putRxByte_of_lt s.rxBuf b hlt).trans (h k hlt.le)

theorem rxClean_empty (s : State) (n : BitVec 2) : rxClean (setRx s n 0) :=
  fun _ _ => BitVec.extractLsb'_zero

/-! Each register write that an instruction makes keeps the invariant. -/

section writes

variable {s : State} (h : Inv s)
include h

theorem inv_setRx {n : BitVec 2} {b : BitVec 24} (hc : rxClean (setRx s n b)) : Inv (setRx s n b) := by
  obtain ⟨hw, hspan, -⟩ := h
  exact ⟨hw, hspan, hc⟩

theorem inv_setTgt (k : Channel) (raw : Byte) : Inv (setTgt s k (govTarget s.cfg raw)) := by
  obtain ⟨hw, hspan, hclean⟩ := h
  refine ⟨hw, fun ch => ⟨(hspan ch).1, ?_⟩, hclean⟩
  rw [setTgt_tgt, getElem_set_channel]
  split
  · exact inSpan_govTarget hw raw
  · exact (hspan ch).2

theorem inv_setCur (k : Channel) : Inv (setCur s k (tickStep s.cfg s.cur[k] s.tgt[k])) := by
  obtain ⟨hw, hspan, hclean⟩ := h
  refine ⟨hw, fun ch => ⟨?_, (hspan ch).2⟩, hclean⟩
  rw [setCur_cur, getElem_set_channel]
  split
  · exact inSpan_tickStep (hspan k).1 (hspan k).2
  · exact (hspan ch).1

theorem inv_tickAll : Inv (setAllCur s (tickAllCur s)) := by
  obtain ⟨hw, hspan, hclean⟩ := h
  refine ⟨hw, fun ch => ⟨?_, (hspan ch).2⟩, hclean⟩
  rw [setAllCur_cur, tickAllCur, perChannel_getElem]
  exact inSpan_tickStep (hspan ch).1 (hspan ch).2

/-- The sequence value, the camera select and the record of outputs are no part of the invariant. -/
theorem inv_of_writes {u : State} (hu : Writes s u) : Inv u := by
  cases hu with
  | nothing | seq => exact h
  | rxStore b hr =>
    have ⟨_, _, hclean⟩ := h
    exact inv_setRx h (rxClean_store b hr hclean)
  | rxClear => exact inv_setRx h (rxClean_empty s 0)
  | tgt k raw => exact inv_setTgt h k raw
  | cur k => exact inv_setCur h k
  | allCur => exact inv_tickAll h
  | frame s₀ u hs hu =>
    have h₀ : Inv s₀ := by
      rcases hs with rfl | ⟨-, rfl⟩
      · exact h
      · exact inv_setRx h (rxClean_empty s 0)
    rcases hu with rfl | ⟨k, raw, rfl⟩ | ⟨x, rfl⟩
    · exact h₀
    · exact inv_setTgt h₀ k raw
    · exact h₀

end writes

/-- Settles O4: every register is at the centre, and the buffer is empty. -/
theorem invariantHoldsAtReset : Obligations.InvariantHoldsAtReset := by
  refine fun cfg hw => ⟨hw, fun ch => ?_, rxClean_empty (State.resetWith cfg) 0⟩
  have hreset : (Vector.replicate 6 (BitVec.ofNat 16 cfg.centerUs))[ch] = BitVec.ofNat 16 cfg.centerUs :=
    Vector.getElem_replicate ch.isLt
  exact ⟨hreset ▸ inSpan_center hw, hreset ▸ inSpan_center hw⟩

/-- Settles O5: a step keeps the registers, resets them, or makes the writes of one instruction. -/
theorem stepKeepsInvariant : Obligations.StepKeepsInvariant := by
  intro s t hs h
  rcases step_next_cases h with ⟨-, rfl⟩ | ⟨-, -, rfl⟩ | ⟨-, rfl⟩ | ⟨cfg, -, -, -, hw, rfl⟩ |
    ⟨-, -, u, o, -, -, -, rfl, hu, -⟩
  case inl | inr.inl | inr.inr.inl => exact hs
  case inr.inr.inr.inl => exact invariantHoldsAtReset cfg hw
  case inr.inr.inr.inr => exact inv_of_writes (u := u) hs hu

/-- The output map reflects the governor's interval onto itself (10_state.md R34). -/
theorem inSpan_escOut {s : State} {ch : Channel} (hw : s.cfg.wf) (hs : inSpan s.cfg s.cur[ch]) :
    inSpan s.cfg (escOut s ch) := by
  rw [inSpan, escOut_toNat hw hs, escOutInt, dsign]
  split <;> omega

/-- Settles O6: the invariant holds along every run from reset, and it bounds the registers and the outputs. -/
theorem reachableOutputsInEscRange : Obligations.ReachableOutputsInEscRange := by
  intro cfg events n t hw hrun
  have hstart : Inv { State.resetWith cfg with port := events } := invariantHoldsAtReset cfg hw
  obtain ⟨hwt, hspan, -⟩ := run_keeps stepKeepsInvariant n _ t hstart hrun
  have ⟨_, hesc, _⟩ := hwt
  exact ⟨fun ch => ⟨(hspan ch).2, (hspan ch).1, inSpan_escOut hwt (hspan ch).1⟩, hesc⟩

end Sys2Proof.Machine

/-! ### Direction acts on the outputs alone (43_governor.md R186) -/

namespace Sys2Proof.Machine

/-- A request is accepted only where one is served. -/
theorem serves_of_accepted {s : State} {w : RequestWord} (h : fetch s = .accepted w) : ∃ rest, Serves s w rest := by
  rcases fetch_cases s with ⟨-, e⟩ | ⟨-, e⟩ | ⟨_, -, e⟩ | ⟨-, -, e⟩ | ⟨_, _, -, -, -, e⟩ |
    ⟨_, e⟩ | ⟨w', rest, hp, hport, hw, e⟩
  case inr.inr.inr.inr.inr.inr =>
    cases e.symm.trans h
    exact ⟨rest, hp, hw, hport⟩
  all_goals cases e.symm.trans h

/-- The same state under other direction bits. -/
def withDir (d : Vector Bool 6) (s : State) : State := { s with cfg := { s.cfg with dir := d } }

theorem agreeButDir_withDir (d : Vector Bool 6) (s : State) : agreeButDir s (withDir d s) := rfl

/-- A channel request commutes with a change of the direction bits if its effect on the channel does. -/
theorem onChannel_withDir (d : Vector Bool 6) (s : State) (ch : Byte) {f g : Channel → State}
    (h : ∀ k, f k = withDir d (g k)) : onChannel (withDir d s) ch f = withDir d (onChannel s ch g) := by
  cases hc : channelOf ch with
  | none => rw [onChannel_of_none f hc, onChannel_of_none g hc]; rfl
  | some k => rw [onChannel_of_some f hc, onChannel_of_some g hc, h k]

theorem commandRule_withDir (k : CommandClass) (c v1 v2 : Byte) (d : Vector Bool 6) (s : State) :
    commandRule k c v1 v2 (withDir d s) =
      { commandRule k c v1 v2 s with state := withDir d (commandRule k c v1 v2 s).state } := by
  cases k with
  | setMotor =>
    simp only [commandRule, setMotorRule]
    cases channelOf v1 <;> rfl
  | setCamera =>
    simp only [commandRule, setCameraRule]
    split <;> rfl
  | establish | readSensor | blink | unrecognized => rfl

theorem processFields_withDir (k : CommandClass) (c v1 v2 : Byte) (sq ck : Nibble) (d : Vector Bool 6) (s : State) :
    processFields (commandRule k) c v1 v2 sq ck (withDir d s) =
      withDir d (processFields (commandRule k) c v1 v2 sq ck s) := by
  by_cases h : ck = calcChecksum c v1 v2 sq
  · rw [processFields_of_valid _ c v1 v2 sq ck _ h, processFields_of_valid _ c v1 v2 sq ck _ h, commandRule_withDir]
    rfl
  · rw [processFields_of_invalid _ c v1 v2 sq ck _ h, processFields_of_invalid _ c v1 v2 sq ck _ h]
    rfl

/-- No instruction reads or writes the direction bits. -/
theorem exec_withDir {i : Instr} {s t : State} (d : Vector Bool 6) (h : exec i s = .next t) :
    exec i (withDir d s) = .next (withDir d t) := by
  cases hf : carries s.cfg i with
  | some f =>
    obtain ⟨c, v1, v2, sq, ck⟩ := f
    have hf' : carries (withDir d s).cfg i = some (c, v1, v2, sq, ck) := hf ▸ by cases i <;> rfl
    have hk : carriedClass (withDir d s).cfg i = carriedClass s.cfg i := by cases i <;> rfl
    cases (exec_of_carries hf).symm.trans h
    rw [exec_of_carries hf', hk, processFields_withDir]
  | none =>
    cases i with
    | rxByte b =>
      by_cases hr : s.rxCount.toNat < 3
      · cases (exec_rxByte_store b hr).symm.trans h
        exact exec_rxByte_store (s := withDir d s) b hr
      · cases (exec_rxByte_complete b hr).symm.trans h
        rw [exec_rxByte_complete (s := withDir d s) b hr]
        exact congrArg Host.Outcome.next (processFields_withDir _ _ _ _ _ _ d (setRx s 0 0))
    | setTarget ch _ | tick ch | readChannel ch =>
      cases h
      exact congrArg Host.Outcome.next (onChannel_withDir d s ch fun _ => rfl)
    | decode c v1 v2 sq ck =>
      by_cases hck : checks c v1 v2 sq ck
      · cases (exec_decode_of_checks s hck).symm.trans h
        exact exec_decode_of_checks (withDir d s) hck
      · cases (exec_decode_of_not_checks s hck).symm.trans h
        exact exec_decode_of_not_checks (withDir d s) hck
    | encode | seqCurrent | seqNext | tickAll => cases h; rfl
    | _ => cases hf

/-- Served alike: the same word, and either the same instruction or the same error. -/
theorem Serves.step_withDir {s t : State} {w : RequestWord} {rest : List HostEvent} (d : Vector Bool 6)
    (hs : Serves s w rest) (h : step s = .next t) : step (withDir d s) = .next (withDir d t) := by
  have hs' : Serves (withDir d s) w rest := ⟨hs.serving, hs.wf, hs.head⟩
  cases hd : decodeRequest w with
  | ok i => exact (hs'.step_of_ok hd).trans (exec_withDir d ((hs.step_of_ok hd).symm.trans h))
  | error e =>
    cases (hs.step_of_error hd).symm.trans h
    rw [hs'.step_of_error hd]
    cases e <;> rfl

/-- The reset level and the host's events are taken alike under any direction bits. A release takes the configuration presented,
direction bits and all, so it leaves the same state whatever these were. -/
theorem fetch_settled_withDir {s t : State} (d : Vector Bool 6) (h : fetch s = .settled (.next t)) :
    fetch (withDir d s) = .settled (.next (withDir d t)) ∨ fetch (withDir d s) = .settled (.next t) := by
  obtain ⟨seq, cur, tgt, rxCount, rxBuf, camSel, cfg, phase, port, history⟩ := s
  cases phase with
  | beforeReset =>
    rcases port with _ | ⟨_ | _ | _, rest⟩ <;> cases h
    exact .inl rfl
  | inReset =>
    rcases port with _ | ⟨w | _ | cfg', rest⟩
    case cons.resetRelease =>
      rw [fetch_resetRelease_inReset rfl rfl] at h
      by_cases hw : cfg'.wf
      · rw [if_pos hw] at h
        cases h
        exact .inr (congrArg Fetched.settled (if_pos hw))
      · rw [if_neg hw] at h
        cases h
    all_goals cases h; exact .inl rfl
  | serving =>
    rcases port with _ | ⟨w | _ | cfg', rest⟩
    case cons.request =>
      by_cases hw : cfg.wf
      · cases (fetch_request rfl hw rfl).symm.trans h
      · cases (fetch_request_of_not_wf rfl hw rfl).symm.trans h
    case cons.resetRelease => cases h
    all_goals cases h; exact .inl rfl

/-- Two FCAGs that differ only in their direction bits take the same step. -/
theorem step_agreeButDir {s t u : State} (hu : agreeButDir s u) (h : step s = .next t) :
    ∃ v, step u = .next v ∧ agreeButDir t v := by
  obtain ⟨d, rfl⟩ : ∃ d, u = withDir d s := ⟨_, hu⟩
  cases hf : fetch s with
  | settled o =>
    cases (step_of_settled hf).symm.trans h
    rcases fetch_settled_withDir d hf with e | e
    · exact ⟨_, step_of_settled e, rfl⟩
    · exact ⟨_, step_of_settled e, rfl⟩
  | accepted w =>
    obtain ⟨rest, hs⟩ := serves_of_accepted hf
    exact ⟨_, hs.step_withDir d h, rfl⟩

/-- A run is its steps, so it is the same run for both. -/
theorem run_agreeButDir {n : Nat} {s t u : State} (hu : agreeButDir s u) (h : Host.Core.run Sys2Proof.core n s = .next t) :
    ∃ v, Host.Core.run Sys2Proof.core n u = .next v ∧ agreeButDir t v := by
  induction n generalizing s u with
  | zero => cases h; exact ⟨u, rfl, hu⟩
  | succ n ih =>
    rw [run_succ] at h
    cases hstep : step s with
    | next s' =>
      rw [hstep] at h
      obtain ⟨u', hstep', hu'⟩ := step_agreeButDir hu hstep
      rw [run_succ, hstep']
      exact ih hu' h
    | fault r => rw [hstep] at h; cases h
    | refused r => rw [hstep] at h; cases h

theorem dsign_of_dir_ne {cfg cfg' : Config} {ch : Channel} (hd : cfg.dir[ch] ≠ cfg'.dir[ch]) :
    dsign cfg' ch = -dsign cfg ch := by
  rw [dsign, dsign, Bool.eq_not_of_ne hd]
  cases cfg'.dir[ch] <;> rfl

/-- Opposite signs on the same offset give outputs that mirror each other about the centre (10_state.md R34). -/
theorem escOutInt_add_of_dir_ne {cfg cfg' : Config} {ch : Channel} (hc : cfg'.centerUs = cfg.centerUs)
    (hd : cfg.dir[ch] ≠ cfg'.dir[ch]) (x : Int) : escOutInt cfg ch x + escOutInt cfg' ch x = 2 * cfg.centerUs := by
  rw [escOutInt, escOutInt, hc, dsign_of_dir_ne hd]
  ring

/-- Settles O54: the runs agree step by step, and the outputs are the same offsets with the channel's sign. -/
theorem directionOnlyReflectsOutputs : Obligations.DirectionOnlyReflectsOutputs := by
  refine ⟨fun n s u t hu h => ?runs, fun s u hs hu ch => ?outputs⟩
  case runs =>
    obtain ⟨v, hrun, hv⟩ := run_agreeButDir hu h
    exact ⟨v, hrun, hv, (congrArg State.cur hv).symm, (congrArg State.tgt hv).symm⟩
  case outputs =>
    obtain ⟨d, rfl⟩ : ∃ d, u = withDir d s := ⟨_, hu⟩
    obtain ⟨hw, hspan, -⟩ := hs
    refine ⟨fun hd => ?same, fun hd => ?reflected⟩
    case same =>
      rw [escOut, escOut, escOutInt, escOutInt, dsign, dsign, hd]
      rfl
    case reflected =>
      have hout := escOut_toNat hw (hspan ch).1
      have hout' := escOut_toNat (s := withDir d s) hw (hspan ch).1
      have hsum := escOutInt_add_of_dir_ne (cfg := s.cfg) (cfg' := (withDir d s).cfg) rfl hd s.cur[ch].toNat
      exact_mod_cast (congrArg₂ (· + ·) hout hout').trans hsum

end Sys2Proof.Machine

/-! ### The governor's range and its requests (43_governor.md R171, R175 to R182) -/

namespace Sys2Proof.Machine

/-! The map is a composition of non-decreasing functions: clamp, scale, deadband. -/

theorem gov_eq_of_govClamp_eq {cfg : Config} {raw raw' : Byte} (h : govClamp cfg raw = govClamp cfg raw') :
    gov cfg raw = gov cfg raw' := by
  rw [gov, gov, h]

theorem govClamp_mono {cfg : Config} (hw : cfg.wf) {raw raw' : Byte} (h : raw.toNat ≤ raw'.toNat) :
    (govClamp cfg raw).toNat ≤ (govClamp cfg raw').toNat := by
  have hraw := govClamp_toNat hw raw
  have hraw' := govClamp_toNat hw raw'
  omega

theorem govScale_mono {cfg : Config} (hw : cfg.wf) {a b : Byte} (h : a.toNat ≤ b.toNat) : govScale cfg a ≤ govScale cfg b := by
  obtain ⟨-, -, -, hden, -⟩ := hw
  have hoffset : (a.toNat : Int) - cfg.rawCenter ≤ (b.toNat : Int) - cfg.rawCenter := by omega
  have hscaled := Int.mul_le_mul_of_nonneg_right hoffset (Int.natCast_nonneg cfg.scaleNum)
  exact Int.add_le_add_left (Int.tdiv_le_tdiv (by omega) hscaled) _

theorem govDeadband_mono (cfg : Config) {x y : Int} (h : x ≤ y) : govDeadband cfg x ≤ govDeadband cfg y := by
  unfold govDeadband
  split_ifs <;> omega

theorem gov_mono {cfg : Config} (hw : cfg.wf) {raw raw' : Byte} (h : raw.toNat ≤ raw'.toNat) : gov cfg raw ≤ gov cfg raw' :=
  govDeadband_mono cfg (govScale_mono hw (govClamp_mono hw h))

/-- Settles O46: the clamp is computed over the integers, and it takes a raw value beyond a boundary to the boundary, as it does
the boundary itself. -/
theorem governorClampSaturates : Obligations.GovernorClampSaturates := by
  intro cfg raw hw
  have hraw := govClamp_toNat hw raw
  have ⟨⟨hlow, hhigh⟩, _⟩ := hw
  refine ⟨?clamp, fun h => gov_eq_of_govClamp_eq (BitVec.eq_of_toNat_eq ?_),
    fun h => gov_eq_of_govClamp_eq (BitVec.eq_of_toNat_eq ?_)⟩
  case clamp => rw [hraw]; split_ifs <;> omega
  all_goals
    rw [← Int.natCast_inj, hraw, govClamp_toNat hw, BitVec.toNat_ofNat]
    omega

/-- Under the reference configuration the scale is a multiplication by 4 about the centres (43_governor.md R172). -/
theorem govScale_reference (a : Byte) : govScale Config.reference a = 1500 + 4 * ((a.toNat : Int) - 128) := by
  have hscale : govScale Config.reference a = 1500 + (((a.toNat : Int) - 128) * 4).tdiv 1 := rfl
  rw [hscale, Int.tdiv_one, mul_comm]

/-- Settles O47: the governor's interval is that of check W2, the map is a composition of non-decreasing ones, and under the
reference configuration the scale is a multiplication by 4. -/
theorem governorMapRange : Obligations.GovernorMapRange := by
  refine ⟨fun cfg raw hw => ?range, fun cfg raw raw' hw h => gov_mono hw h, fun raw => ?reference⟩
  case range =>
    have hspan := gov_natAbs_le hw raw
    obtain ⟨-, ⟨hmin, hmax⟩, -⟩ := hw
    omega
  case reference =>
    have hclamp : ((govClamp Config.reference raw).toNat : Int) = max ((128 : Int) - 100) (min (raw.toNat : Int) (128 + 100)) :=
      govClamp_toNat (cfg := Config.reference) (by decide) raw
    have hcenter : (Config.reference.centerUs : Int) = 1500 := rfl
    have hdeadband : Config.reference.deadbandUs = 25 := rfl
    rw [gov, govDeadband, govScale_reference, hclamp, hcenter, hdeadband]
    split_ifs <;> omega

/-! ### The slew step toward the target from below and from above (43_governor.md R177) -/

theorem tickStep_toNat_of_le {cfg : Config} {cur tgt : Pulse} (h : cur.toNat ≤ tgt.toNat) :
    (tickStep cfg cur tgt).toNat = min tgt.toNat (cur.toNat + cfg.stepUs) := by
  rw [← Int.natCast_inj, tickStep_toNat, tickStepInt]
  rcases h.eq_or_lt with he | hlt
  · rw [if_pos (by omega)]; omega
  · rw [Int.sign_eq_one_of_pos (by omega)]; split_ifs <;> omega

theorem tickStep_toNat_of_ge {cfg : Config} {cur tgt : Pulse} (h : tgt.toNat ≤ cur.toNat) :
    (tickStep cfg cur tgt).toNat = max tgt.toNat (cur.toNat - cfg.stepUs) := by
  rw [← Int.natCast_inj, tickStep_toNat, tickStepInt]
  rcases h.eq_or_lt with he | hlt
  · rw [if_pos (by omega)]; omega
  · rw [Int.sign_eq_neg_one_of_neg (by omega)]; split_ifs <;> omega

theorem slewsTo_tickStep (cfg : Config) (cur tgt : Pulse) : slewsTo cfg cur tgt (tickStep cfg cur tgt) := by
  rw [slewsTo, Int.abs_eq_natAbs]
  rcases le_total cur.toNat tgt.toNat with h | h
  · rw [tickStep_toNat_of_le h]; split_ifs <;> omega
  · rw [tickStep_toNat_of_ge h]; split_ifs <;> omega

/-! ### The governor's requests: encodings, answers and errors (43_governor.md R176, R178, R180, R182) -/

/-- The request word of a channel request, written out field by field. -/
theorem append_channelOperands (opc ch b : Byte) : opc ++ 0#16 ++ ch ++ b = requestWord opc (bytesWord 0 0 ch b) := by
  apply BitVec.eq_of_getLsbD_eq
  intro i hi
  rw [getLsbD_requestWord, getLsbD_bytesWord]
  simp only [BitVec.getLsbD_append]
  grind

/-- A channel request's word, written out field by field, decodes to the instruction that it encodes. -/
theorem decodeRequest_channelOperands {i : Instr} {opc ch b : Byte}
    (h : encode Config.reference i = .request (requestWord opc (bytesWord 0 0 ch b))) :
    decodeRequest (opc ++ 0#16 ++ ch ++ b) = .ok i := by
  rw [append_channelOperands]
  exact decodeRequest_of_encode h

theorem zeros_append_pulse (x : Pulse) : 0#16 ++ x = x.setWidth 32 :=
  (BitVec.setWidth_eq_append (by decide)).symm

section channel

variable {ch : Byte} {s : State}

/-- A channel request for a channel that does not exist is answered with ERR_CHANNEL and does nothing else. -/
theorem onChannel_of_invalid (effect : Channel → State) (h : 6 ≤ ch.toNat) : onChannel s ch effect =
    { s with port := s.port.tail, history := ⟨.errChannel, 0, [], []⟩ :: s.history } :=
  onChannel_of_none effect (channelOf_of_invalid h)

/-- A channel request has its effect on the channel that its operand names. -/
theorem onChannel_of_toNat_eq {k : Channel} (effect : Channel → State) (h : ch.toNat = k.val) :
    onChannel s ch effect = effect k :=
  onChannel_of_some effect (channelOf_eq_some.mpr h)

end channel

/-- Settles O48: the target is the governor's, and an index past the channels is an error. -/
theorem setTargetCommandsChannel : Obligations.SetTargetCommandsChannel :=
  ⟨fun _ _ => decodeRequest_channelOperands rfl,
    fun _ raw _ s hw hk => ⟨govClamp s.cfg raw, govTarget s.cfg raw, governedTo_govTarget hw raw,
      congrArg Host.Outcome.next (onChannel_of_toNat_eq _ hk)⟩,
    fun _ _ _ h => congrArg Host.Outcome.next (onChannel_of_invalid _ h), reservedBitsRejected_opcodeByte .setTarget⟩

/-- Settles O49: the present value makes one slew step, which lies between it and the target. -/
theorem tickMovesOneStep : Obligations.TickMovesOneStep := by
  refine ⟨fun _ => decodeRequest_channelOperands rfl, fun ch k s hk => ?moved,
    fun _ _ h => congrArg Host.Outcome.next (onChannel_of_invalid _ h), reservedBitsRejected_opcodeByte .tick⟩
  case moved =>
    obtain ⟨hlower, hupper⟩ := tickStep_between s.cfg s.cur[k] s.tgt[k]
    refine ⟨tickStep s.cfg s.cur[k] s.tgt[k], slewsTo_tickStep .., hlower, hupper, ?_⟩
    rw [zeros_append_pulse]
    exact congrArg Host.Outcome.next (onChannel_of_toNat_eq _ hk)

theorem getLsbD_channelMask (f : Channel → Bool) (k : Channel) : (channelMask f).getLsbD k.val = f k := by
  unfold channelMask
  change BitVec.getLsbD (w := 26 + 1 + 1 + 1 + 1 + 1 + 1) _ _ = _
  simp only [BitVec.getLsbD_append, BitVec.getLsbD_ofBool]
  fin_cases k <;> rfl

theorem getLsbD_channelMask_of_ge (f : Channel → Bool) {j : Nat} (h : 6 ≤ j) : (channelMask f).getLsbD j = false := by
  unfold channelMask
  change BitVec.getLsbD (w := 26 + 1 + 1 + 1 + 1 + 1 + 1) _ _ = _
  simp only [BitVec.getLsbD_append, BitVec.getLsbD_ofBool]
  grind

/-- Settles O50: every channel makes its slew step, and the mask holds one bit for each. -/
theorem tickAllMovesEveryChannel : Obligations.TickAllMovesEveryChannel := by
  refine ⟨decodeRequest_of_encode (cfg := Config.reference) (i := .tickAll) rfl,
    fun s => ⟨tickAllCur s, _, fun k => ⟨?slew, ?mask⟩, fun j hj => getLsbD_channelMask_of_ge _ hj, rfl⟩,
    reservedBitsRejected_opcodeByte .tickAll⟩
  case slew => rw [tickAllCur, perChannel_getElem]; exact slewsTo_tickStep ..
  case mask => rw [getLsbD_channelMask, tickAllCur, perChannel_getElem, decide_eq_true_iff]

/-- Settles O51: the answer is the channel's two registers. -/
theorem readChannelReads : Obligations.ReadChannelReads :=
  ⟨fun _ => decodeRequest_channelOperands rfl, fun _ _ _ hk => congrArg Host.Outcome.next (onChannel_of_toNat_eq _ hk),
    fun _ _ h => congrArg Host.Outcome.next (onChannel_of_invalid _ h), reservedBitsRejected_opcodeByte .readChannel⟩

end Sys2Proof.Machine

/-! ### The ramp toward a target that stays (43_governor.md R181) -/

namespace Sys2Proof.Machine

/-! `n` slew steps are one step of `n` times the size. -/

theorem tickStep_iterate_of_le {cfg : Config} {cur tgt : Pulse} (h : cur.toNat ≤ tgt.toNat) (n : Nat) :
    ((tickStep cfg · tgt)^[n] cur).toNat = min tgt.toNat (cur.toNat + n * cfg.stepUs) := by
  induction n with
  | zero => rw [Function.iterate_zero_apply]; omega
  | succ n ih => rw [Function.iterate_succ_apply', tickStep_toNat_of_le (by omega), ih, Nat.succ_mul]; omega

theorem tickStep_iterate_of_ge {cfg : Config} {cur tgt : Pulse} (h : tgt.toNat ≤ cur.toNat) (n : Nat) :
    ((tickStep cfg · tgt)^[n] cur).toNat = max tgt.toNat (cur.toNat - n * cfg.stepUs) := by
  induction n with
  | zero => rw [Function.iterate_zero_apply]; omega
  | succ n ih => rw [Function.iterate_succ_apply', tickStep_toNat_of_ge (by omega), ih, Nat.succ_mul]; omega

/-- A channel whose target stays and whose present value makes `n` slew steps toward it has ramped by `n` ticks. -/
theorem rampedBy_of_iterate {n : Nat} {k : Channel} {s t : State} (hstep : 1 ≤ s.cfg.stepUs) (htgt : t.tgt[k] = s.tgt[k])
    (hcur : t.cur[k] = (tickStep s.cfg · s.tgt[k])^[n] s.cur[k]) : RampedBy n k s t := by
  have hat : t.cur[k] = t.tgt[k] ↔ t.cur[k].toNat = s.tgt[k].toNat := by rw [htgt, BitVec.toNat_inj]
  have hceil : (distance s k + s.cfg.stepUs - 1) / s.cfg.stepUs ≤ n ↔ distance s k ≤ n * s.cfg.stepUs := by
    rw [← Nat.ceilDiv_eq_add_pred_div, ceilDiv_le_iff_le_mul hstep, mul_comm]
  have hn : (s.cur[k].toNat ≤ s.tgt[k].toNat ∧ t.cur[k].toNat = min s.tgt[k].toNat (s.cur[k].toNat + n * s.cfg.stepUs)) ∨
      (s.tgt[k].toNat ≤ s.cur[k].toNat ∧ t.cur[k].toNat = max s.tgt[k].toNat (s.cur[k].toNat - n * s.cfg.stepUs)) := by
    rw [hcur]
    exact (le_total _ _).imp (fun h => ⟨h, tickStep_iterate_of_le h n⟩) fun h => ⟨h, tickStep_iterate_of_ge h n⟩
  refine ⟨htgt, ?shrunk, fun h => ?upward, fun h => ?downward, ?arrived⟩
  case shrunk => rw [distance, distance, htgt]; omega
  case upward | downward => omega
  case arrived => rw [hat, hceil, distance]; omega

/-- An instruction leaves the configuration. -/
theorem exec_cfg {i : Instr} {s t : State} (h : exec i s = .next t) : t.cfg = s.cfg := by
  obtain ⟨u, o, e, hu, -⟩ := exec_form i s
  cases e.symm.trans h
  obtain ⟨hcfg, -, -, -⟩ := hu.keeps
  exact hcfg

/-- Where a tick is counted, the slew steps to come start one step further on. -/
theorem iterate_countP_cons {α β : Type} (f : β → β) (p : α → Bool) (a : α) (as : List α) (x : β) :
    f^[(a :: as).countP p] x = f^[as.countP p] (if p a then f x else x) := by
  rw [List.countP_cons]
  split
  · rw [Function.iterate_add_apply, Function.iterate_one]
  · rfl

/-- A list of instructions that leaves a channel's target alone makes one slew step of the channel for each tick in it. -/
theorem execAll_cur {k : Channel} {is : List Instr} {s : State} (h : leavesTarget k is s) : ∃ t, execAll is s = .next t ∧
    t.tgt[k] = s.tgt[k] ∧ t.cur[k] = (tickStep s.cfg · s.tgt[k])^[is.countP (ticks k)] s.cur[k] := by
  induction is generalizing s with
  | nil => exact ⟨s, rfl, rfl, rfl⟩
  | cons i is ih =>
    obtain ⟨u, o, hexec, -⟩ := exec_form i s
    obtain ⟨htgt, hrest⟩ := h _ hexec
    obtain ⟨t, hrun, htgt', hcur'⟩ := ih hrest
    refine ⟨t, (execAll_cons hexec is).trans hrun, htgt'.trans htgt, ?_⟩
    rw [hcur', exec_cfg hexec, htgt, exec_cur hexec, iterate_countP_cons]

/-- Settles O52: each tick in the list is one slew step, and the slew steps are a ramp. -/
theorem rampLength : Obligations.RampLength := by
  intro k is s hstep h
  obtain ⟨t, hrun, htgt, hcur⟩ := execAll_cur h
  exact ⟨t, hrun, rampedBy_of_iterate hstep htgt hcur⟩

/-! ### Served words: what a request does to the present values (43_governor.md R181, R183) -/

/-- A served word is answered in one step, which makes one slew step of each channel the word ticks and leaves the other present
values, whether the word decodes or not. -/
theorem Serves.step_cur {s : State} {w : RequestWord} {rest : List HostEvent} (h : Serves s w rest) : ∃ t, step s = .next t ∧
    t.phase = .serving ∧ t.cfg = s.cfg ∧ t.port = rest ∧
    ∀ k : Channel, t.cur[k] = if ticksByWord k w then tickStep s.cfg s.cur[k] s.tgt[k] else s.cur[k] := by
  have htail : s.port.tail = rest := by rw [h.head, List.tail_cons]
  cases hd : decodeRequest w with
  | ok i =>
    obtain ⟨u, o, hexec, hu, -⟩ := exec_form i s
    obtain ⟨hcfg, hphase, hport, -⟩ := hu.keeps
    refine ⟨_, (h.step_of_ok hd).trans hexec, hphase.trans h.serving, hcfg, ?_, fun k => ?_⟩
    · rw [finish_port, hport, htail]
    · rw [exec_cur hexec, ticksByWord, hd]
  | error e =>
    refine ⟨_, h.step_of_error hd, ?_⟩
    simp only [ticksByWord, hd]
    cases e <;> exact ⟨h.serving, rfl, htail, fun k => rfl⟩

/-- A run whose next events are words, and along which no step changes a channel's target, makes one slew step of the channel for
each word that ticks it. -/
theorem run_requests_cur {k : Channel} {ws : List RequestWord} {rest : List HostEvent} {s : State} (hp : s.phase = .serving)
    (hw : s.cfg.wf) (hport : s.port = ws.map HostEvent.request ++ rest)
    (htgt : ∀ (j : Nat) (u : State), j ≤ ws.length → Host.Core.run Sys2Proof.core j s = .next u → u.tgt[k] = s.tgt[k]) :
    ∃ t, Host.Core.run Sys2Proof.core ws.length s = .next t ∧ t.port = rest ∧
      t.cur[k] = (tickStep s.cfg · s.tgt[k])^[ws.countP (ticksByWord k)] s.cur[k] := by
  induction ws generalizing s with
  | nil => exact ⟨s, rfl, hport, rfl⟩
  | cons w ws ih =>
    obtain ⟨u, hstep, hphase, hcfg, hrest, hcur⟩ := Serves.step_cur ⟨hp, hw, hport⟩
    have hrun (j : Nat) : Host.Core.run Sys2Proof.core (j + 1) s = Host.Core.run Sys2Proof.core j u := by
      rw [run_succ, hstep]
    have htgt₁ : u.tgt[k] = s.tgt[k] := htgt 1 u (by simp) (hrun 0)
    obtain ⟨t, hrun', hport', hcur'⟩ := ih hphase (hcfg ▸ hw) hrest fun j v hj hv =>
      (htgt (j + 1) v (Nat.succ_le_succ hj) ((hrun j).trans hv)).trans htgt₁.symm
    refine ⟨t, (hrun _).trans hrun', hport', ?_⟩
    rw [hcur', hcfg, htgt₁, hcur, iterate_countP_cons]

/-- Settles O58: each word that ticks the channel is one slew step, and the slew steps are a ramp. -/
theorem rampLengthOfRequests : Obligations.RampLengthOfRequests := by
  intro k ws rest s hp hw hport htgt
  obtain ⟨t, hrun, hrest, hcur⟩ := run_requests_cur hp hw hport htgt
  have ⟨_, _, hstep, _⟩ := hw
  exact ⟨t, hrun, hrest, rampedBy_of_iterate hstep (htgt _ t le_rfl hrun) hcur⟩

/-! ### The slew bound (43_governor.md R183) -/

theorem abs_tickStep_sub_le (cfg : Config) (cur tgt : Pulse) :
    |((tickStep cfg cur tgt).toNat : Int) - cur.toNat| ≤ cfg.stepUs := by
  rw [abs_le]
  rcases le_total cur.toNat tgt.toNat with h | h
  · rw [tickStep_toNat_of_le h]; omega
  · rw [tickStep_toNat_of_ge h]; omega

/-- The output map is an isometry: it moves an output as far as the present value. -/
theorem abs_escOutInt_sub (cfg : Config) (ch : Channel) (x y : Int) : |escOutInt cfg ch x - escOutInt cfg ch y| = |x - y| := by
  unfold escOutInt dsign
  split
  · rw [abs_sub_comm x y]; congr 1; ring
  · congr 1; ring

theorem escOut_congr {s t : State} (hcfg : t.cfg = s.cfg) (hcur : t.cur = s.cur) (ch : Channel) : escOut t ch = escOut s ch := by
  rw [escOut, escOut, hcfg, hcur]

/-- Settles O53: a served word makes at most one slew step of a channel, and its output moves as far; SET_TARGET and SET_MOTOR tick no
channel. -/
theorem oneRequestMovesOutputsOneStep : Obligations.OneRequestMovesOutputsOneStep := by
  refine ⟨fun s t w rest hs hserves h ch => ?bound, fun i s t hi h => ?still⟩
  case bound =>
    obtain ⟨t', hstep, -, hcfg, -, hcur⟩ := hserves.step_cur
    cases hstep.symm.trans h
    have hmoved : |(t.cur[ch].toNat : Int) - s.cur[ch].toNat| ≤ s.cfg.stepUs := by
      rw [hcur]
      split
      · exact abs_tickStep_sub_le ..
      · simp
    obtain ⟨hwt, hspant, -⟩ := stepKeepsInvariant s t hs h
    obtain ⟨hws, hspans, -⟩ := hs
    refine ⟨hmoved, ?_⟩
    rwa [escOut_toNat hwt (hspant ch).1, escOut_toNat hws (hspans ch).1, hcfg, abs_escOutInt_sub]
  case still =>
    have hticks : ∀ k, ticks k i = false := by
      intro k
      rcases hi with ⟨ch, raw, rfl⟩ | ⟨v1, v2, sq, ck, rfl⟩ <;> exact decide_eq_false nofun
    have hcur := exec_cur_of_not_ticks h hticks
    refine ⟨hcur, not_not.mp fun hne => ?_, escOut_congr (exec_cfg h) hcur⟩
    rcases onlySetCameraChangesSelect i s t h hne with ⟨_, _, _, _, rfl, -⟩ | ⟨_, _, _, _, rfl, -⟩ | ⟨_, rfl, -⟩ <;>
      rcases hi with ⟨_, _, hi⟩ | ⟨_, _, _, _, hi⟩ <;> cases hi

end Sys2Proof.Machine

/-! ### Idling (60_exceptions.md R218) -/

namespace Sys2Proof.Machine

/-- Once a reset has happened, nothing presented settles as the same state. -/
theorem fetch_idle {s : State} (hp : s.phase ≠ .beforeReset) (h : s.port = []) : fetch s = .settled (.next s) := by
  cases hphase : s.phase with
  | beforeReset => exact absurd hphase hp
  | inReset | serving => simp only [fetch, hphase, h]

/-- Settles O7: idling is settled by `fetch`, so it is the outcome of the step. -/
theorem idleStateHeld : Obligations.IdleStateHeld :=
  fun _ hp h => step_of_settled (fetch_idle hp h)

end Sys2Proof.Machine

/-! ### The status table (60_exceptions.md R201) -/

namespace Sys2Proof.Machine

/-- The state after ERR_CHECKSUM for the frame `f`: the answer holds the received and the computed nibble, and nothing else is
written (42_dispatch.md R133). -/
def raiseChecksum (s : State) (f : FrameWord) : State :=
  raise s .errChecksum (checksumErrorData (checkNibble f) (calcChecksum (byte0 f) (byte1 f) (byte2 f) (seqNibble f)))

/-- An invalid frame is answered with ERR_CHECKSUM whatever its command byte. -/
theorem processFrame_of_not_frameValid {f : FrameWord} (s : State) (hf : ¬frameValid f) :
    processFrame (byte0 f) (byte1 f) (byte2 f) (seqNibble f) (checkNibble f) s = raiseChecksum s f :=
  processFields_of_invalid _ _ _ _ _ _ s (mt checks_iff.mpr hf)

/-- The rows of the status table for the word `w` in the state `s`: the cause of each error status and the state it leaves.
`Serves.step_of_raised` and `Serves.raised_of_step` say that the machine raises exactly these errors. -/
inductive Raised (s : State) (w : RequestWord) : Status → State → Prop
  /-- The opcode is unassigned (R204). -/
  | opcode (ho : requestOp (opcodeOf w) = none) : Raised s w .errOpcode (raise s .errOpcode 0)
  /-- A reserved bit is 1 (R205). -/
  | reserved (op : RequestOp) (ho : requestOp (opcodeOf w) = some op) (hz : payloadOf w &&& reservedZeroMask op ≠ 0) :
    Raised s w .errReserved (raise s .errReserved 0)
  /-- A channel request names no channel (R203). -/
  | channel (op : RequestOp) (hop : op = .setTarget ∨ op = .tick ∨ op = .readChannel) (ho : requestOp (opcodeOf w) = some op)
    (hz : payloadOf w &&& reservedZeroMask op = 0) (hch : 6 ≤ (byte2 (payloadOf w)).toNat) :
    Raised s w .errChannel (raise s .errChannel 0)
  /-- DECODE or PROCESS_FRAME of an invalid frame (R202). -/
  | frame (hopc : opcodeOf w = 0x02 ∨ opcodeOf w = 0x06) (hf : ¬frameValid (payloadOf w)) :
    Raised s w .errChecksum (raiseChecksum s (payloadOf w))
  /-- The fourth RX_BYTE of an invalid frame (R202). -/
  | fourthByte (hopc : opcodeOf w = 0x05) (hz : payloadOf w &&& 0xFFFFFF00 = 0) (h3 : s.rxCount = 3)
    (hf : ¬frameValid (s.rxBuf ++ byte3 (payloadOf w))) :
    Raised s w .errChecksum (raiseChecksum (setRx s 0 0) (s.rxBuf ++ byte3 (payloadOf w)))

/-- An error's answer heads the record of outputs, under the status of its row. -/
theorem Raised.history_eq {s t : State} {w : RequestWord} {st : Status} (h : Raised s w st t) :
    ∃ data, t.history = ⟨st, data, [], []⟩ :: s.history := by
  cases h <;> exact ⟨_, rfl⟩

/-- A completed frame is answered with a success status. -/
theorem completeFrame_status {k : CommandClass} {c v1 v2 : Byte} {s : State} {q : Nibble} {o : Completion}
    (h : (completeFrame (commandRule k c v1 v2 s) q).history = o :: s.history) : o.status = .ok ∨ o.status = .okTx := by
  obtain ⟨rfl, -⟩ := List.cons.inj h
  unfold frameCompletion
  split
  · exact .inr rfl
  · exact .inl rfl

/-- A processed frame is answered with a success status unless it is invalid. -/
theorem processFrame_status {f : FrameWord} {s : State} {o : Completion}
    (h : (processFrame (byte0 f) (byte1 f) (byte2 f) (seqNibble f) (checkNibble f) s).history = o :: s.history)
    (hf : frameValid f) : o.status = .ok ∨ o.status = .okTx := by
  rw [processFrame, processFields_of_valid _ _ _ _ _ _ s (checks_iff.mp hf)] at h
  exact completeFrame_status h

section serving

variable {s t : State} {w : RequestWord} {rest : List HostEvent} (h : Serves s w rest)
include h

/-- A word of an assigned opcode with no reserved bit set runs the instruction of its operands. -/
theorem Serves.step_of_op {op : RequestOp} (ho : requestOp (opcodeOf w) = some op)
    (hz : payloadOf w &&& reservedZeroMask op = 0) : step s = exec (requestInstr op (payloadOf w)) s :=
  h.step_of_ok (by rw [decodeRequest_of_op ho, if_neg (not_not.mpr hz)])

/-- A word of an assigned opcode with a reserved bit set is an error. -/
theorem Serves.step_of_reserved {op : RequestOp} (ho : requestOp (opcodeOf w) = some op)
    (hz : payloadOf w &&& reservedZeroMask op ≠ 0) : step s = .next (raise s .errReserved 0) :=
  h.step_of_error (e := .reservedBits) (by rw [decodeRequest_of_op ho, if_pos hz])

/-- Every row of the status table is what the step does. -/
theorem Serves.step_of_raised {st : Status} (hr : Raised s w st t) : step s = .next t := by
  cases hr with
  | opcode ho => exact h.step_of_error (decodeRequest_of_none ho)
  | reserved op ho hz => exact h.step_of_reserved ho hz
  | channel op hop ho hz hch =>
    rw [h.step_of_op ho hz]
    obtain rfl | rfl | rfl := hop <;> exact congrArg Host.Outcome.next (onChannel_of_none _ (channelOf_of_invalid hch))
  | frame hopc hf =>
    rcases hopc with hopc | hopc
    · rw [h.step_of_op (op := .decode) (requestOp_eq_some.mpr hopc) BitVec.and_zero]
      exact exec_decode_of_not_checks s hf
    · rw [h.step_of_op (op := .processFrame) (requestOp_eq_some.mpr hopc) BitVec.and_zero]
      exact congrArg Host.Outcome.next (processFrame_of_not_frameValid s hf)
  | fourthByte hopc hz h3 hf =>
    rw [h.step_of_op (op := .rxByte) (requestOp_eq_some.mpr hopc) hz]
    exact (exec_rxByte_fourth h3 rfl).trans (congrArg Host.Outcome.next (processFrame_of_not_frameValid _ hf))

/-- A row that applies gives the step's status and next state. -/
theorem Serves.eq_of_raised {st : Status} {u : State} {o : Completion} (hr : Raised s w st u) (hstep : step s = .next t)
    (hhist : t.history = o :: s.history) : o.status = st ∧ t = u := by
  cases (h.step_of_raised hr).symm.trans hstep
  obtain ⟨data, hu⟩ := hr.history_eq
  cases hu.symm.trans hhist
  exact ⟨rfl, rfl⟩

/-- Every answer of a step is a success or a row of the status table. -/
theorem Serves.raised_of_step {o : Completion} (hstep : step s = .next t) (hhist : t.history = o :: s.history) :
    o.status = .ok ∨ o.status = .okTx ∨ Raised s w o.status t := by
  have raised {st : Status} {u : State} (hr : Raised s w st u) : o.status = .ok ∨ o.status = .okTx ∨ Raised s w o.status t := by
    obtain ⟨rfl, rfl⟩ := h.eq_of_raised hr hstep hhist
    exact .inr (.inr hr)
  cases ho : requestOp (opcodeOf w) with
  | none => exact raised (.opcode ho)
  | some op =>
    by_cases hz : payloadOf w &&& reservedZeroMask op = 0
    case neg => exact raised (.reserved op ho hz)
    case pos =>
      have hexec := (h.step_of_op ho hz).symm.trans hstep
      have hopc := requestOp_eq_some.mp ho
      cases op with
      | encode | seqCurrent | seqNext | tickAll => cases hexec; cases hhist; exact .inl rfl
      | setTarget | tick | readChannel =>
        by_cases hch : (byte2 (payloadOf w)).toNat ≤ 5
        · cases hexec
          rw [onChannel_of_some _ (channelOf_of_valid hch)] at hhist
          cases hhist
          exact .inl rfl
        · exact raised (.channel _ (by simp) ho hz (not_le.mp hch))
      | decode =>
        by_cases hf : frameValid (payloadOf w)
        · cases (exec_decode_of_checks s hf).symm.trans hexec
          cases hhist
          exact .inl rfl
        · exact raised (.frame (.inl hopc) hf)
      | processFrame =>
        by_cases hf : frameValid (payloadOf w)
        · cases hexec
          exact (processFrame_status hhist hf).imp_right .inl
        · exact raised (.frame (.inr hopc) hf)
      | rxByte =>
        by_cases hlt : s.rxCount.toNat < 3
        case pos =>
          cases (exec_rxByte_store _ hlt).symm.trans hexec
          cases hhist
          exact .inl rfl
        case neg =>
          by_cases hf : frameValid (s.rxBuf ++ byte3 (payloadOf w))
          · cases (exec_rxByte_complete _ hlt).symm.trans hexec
            exact (processFrame_status hhist hf).imp_right .inl
          · exact raised (.fourthByte hopc hz (by bv_omega) hf)

/-- The received and the computed nibble are all that an invalid frame's answer holds. -/
theorem Serves.raiseChecksum_eq (f : FrameWord) : ∃ e, checks (byte0 f) (byte1 f) (byte2 f) (seqNibble f) e ∧
    raiseChecksum s f =
      { s with port := rest, history := ⟨.errChecksum, 0#24 ++ checkNibble f ++ e, [], []⟩ :: s.history } :=
  ⟨_, checks_iff.mpr rfl, h.raise_eq ..⟩

end serving

/-- Settles O15: an error status in the answer is a row of the status table, which gives its cause and the next state; and a row
whose cause holds gives the answer's status. -/
theorem errorsWriteNoState : Obligations.ErrorsWriteNoState := by
  intro s t w rest o h hstep hhist
  have row {st : Status} (hst : o.status = st) (hok : st ≠ .ok) (htx : st ≠ .okTx) : Raised s w st t := by
    subst hst
    exact ((h.raised_of_step hstep hhist).resolve_left hok).resolve_left htx
  have status {st : Status} {u : State} (hr : Raised s w st u) : o.status = st := (h.eq_of_raised hr hstep hhist).1
  refine ⟨⟨⟨fun hst => ?opcodeCause, fun ho => status (.opcode (requestOp_eq_none.mpr ho))⟩, fun hst => ?opcodeState⟩,
    ⟨⟨fun hst => ?reservedCause, fun ⟨op, ho, _, _, hz⟩ => status (.reserved op ho hz)⟩, fun hst => ?reservedState⟩,
    ⟨⟨fun hst => ?channelCause, fun ⟨op, hop, ho, hz, hch⟩ => status (.channel op hop ho hz hch)⟩, fun hst => ?channelState⟩,
    ⟨fun hst => ?checksumCause, ?checksumRaised⟩, fun hst hne => ?frameState, fun hst heq f hf => ?fourthByteState⟩
  case opcodeCause => cases row hst nofun nofun with | opcode ho => exact requestOp_eq_none.mp ho
  case opcodeState => cases row hst nofun nofun with | opcode => exact h.raise_eq ..
  case reservedCause =>
    cases row hst nofun nofun with
    | reserved op ho hz =>
      refine ⟨op, ho, ?_, ?_, hz⟩ <;> rintro rfl <;> exact hz BitVec.and_zero
  case reservedState => cases row hst nofun nofun with | reserved => exact h.raise_eq ..
  case channelCause =>
    cases row hst nofun nofun with | channel op hop ho hz hch => exact ⟨op, hop, ho, hz, hch⟩
  case channelState => cases row hst nofun nofun with | channel => exact h.raise_eq ..
  case checksumCause =>
    cases row hst nofun nofun with
    | frame hopc hf => exact .inl ⟨hopc, hf⟩
    | fourthByte hopc hz h3 hf => exact .inr ⟨hopc, hz, h3, hf⟩
  case checksumRaised =>
    rintro (⟨hopc, hf⟩ | ⟨hopc, hz, h3, hf⟩)
    · exact status (.frame hopc hf)
    · exact status (.fourthByte hopc hz h3 hf)
  case frameState =>
    cases row hst nofun nofun with
    | frame => exact h.raiseChecksum_eq (payloadOf w)
    | fourthByte hopc => exact absurd hopc hne
  case fourthByteState =>
    subst hf
    cases row hst nofun nofun with
    | frame hopc => rw [heq] at hopc; exact absurd hopc (by decide)
    | fourthByte =>
      have hcleared : Serves (setRx s 0 0) w rest := ⟨h.serving, h.wf, h.head⟩
      exact hcleared.raiseChecksum_eq (s.rxBuf ++ byte3 (payloadOf w))

end Sys2Proof.Machine

/-! ### One answer to every word (70_reset_and_hazards.md R243, 20_memory.md R64) -/

namespace Sys2Proof.Machine

/-- A served word ends its request in one step, after an instruction's writes or, if it does not decode, after none, with at most
one event. -/
theorem Serves.step_form {s : State} {w : RequestWord} {rest : List HostEvent} (h : Serves s w rest) :
    ∃ u o, step s = .next (finish u o) ∧ Writes s u ∧ o.tx.length + o.blink.length ≤ 1 := by
  cases hd : decodeRequest w with
  | ok i => exact h.step_of_ok hd ▸ exec_form i s
  | error e =>
    rw [h.step_of_error hd]
    cases e <;> exact ⟨s, _, rfl, .nothing, Nat.zero_le 1⟩

/-- Settles O14: the request ends in one completion, and the writes before it keep the port, the phase, the configuration and the
record of outputs. -/
theorem everyRequestAnsweredOnce : Obligations.EveryRequestAnsweredOnce := by
  intro s w rest h
  obtain ⟨u, o, hstep, hwrites, hevents⟩ := h.step_form
  obtain ⟨hcfg, hphase, hport, hhistory⟩ := hwrites.keeps
  refine ⟨finish u o, o, hstep, congrArg (o :: ·) hhistory, ?_, hphase.trans h.serving, hcfg, hevents⟩
  rw [finish_port, hport, h.head, List.tail_cons]

end Sys2Proof.Machine

/-! ### The outputs at reset (70_reset_and_hazards.md R232) -/

namespace Sys2Proof.Machine

/-- A well-formed configuration's centre is in its range, so the register holds it uncut (00_scope.md R7, 10_state.md R23). -/
theorem resetWith_cur_toNat {cfg : Config} (hw : cfg.wf) (ch : Channel) : (State.resetWith cfg).cur[ch].toNat = cfg.centerUs := by
  have hcur : (State.resetWith cfg).cur[ch] = BitVec.ofNat 16 cfg.centerUs := Vector.getElem_replicate ch.isLt
  obtain ⟨-, -, -, -, -, -, hcenter, -⟩ := hw
  rw [hcur, BitVec.toNat_ofNat, Nat.mod_eq_of_lt (Nat.lt_succ_of_le hcenter)]

/-- The centre has no offset for a direction to act on. -/
theorem escOutInt_center (cfg : Config) (ch : Channel) : escOutInt cfg ch cfg.centerUs = cfg.centerUs := by
  rw [escOutInt, sub_self, mul_zero, add_zero]

/-- Settles O3: the invariant holds at reset, so the output is the map's integer, and the map fixes the centre. -/
theorem escOutAtResetIsCentre : Obligations.EscOutAtResetIsCentre := by
  intro cfg ch hw
  have ⟨_, hspan, _⟩ := invariantHoldsAtReset cfg hw
  apply Int.natCast_inj.mp
  calc ((escOut (State.resetWith cfg) ch).toNat : Int)
      _ = escOutInt cfg ch (State.resetWith cfg).cur[ch].toNat := escOut_toNat hw (hspan ch).1
      _ = escOutInt cfg ch cfg.centerUs := by rw [resetWith_cur_toNat hw]
      _ = cfg.centerUs := escOutInt_center cfg ch

end Sys2Proof.Machine

/-! ### The reset line (70_reset_and_hazards.md R230) -/

namespace Sys2Proof.Machine

/-- In reset, a request is dropped and not accepted (log entry 9). -/
theorem fetch_request_inReset {s : State} {w : RequestWord} {rest : List HostEvent} (hp : s.phase = .inReset)
    (h : s.port = .request w :: rest) : fetch s = .settled (.next (dropEvent s)) := by
  simp only [fetch, hp, h]

/-- In reset, asserting RESET again changes nothing, since the phase it would set is the one that holds. -/
theorem assertReset_of_inReset {s : State} (hp : s.phase = .inReset) : assertReset s = dropEvent s := by
  rw [assertReset, ← hp]

/-- The assertion of RESET is taken in every phase, with one effect. -/
theorem fetch_resetAssert {s : State} {rest : List HostEvent} (h : s.port = .resetAssert :: rest) :
    fetch s = .settled (.next (assertReset s)) := by
  cases hp : s.phase with
  | beforeReset | serving => simp only [fetch, hp, h]
  | inReset => simp only [fetch, hp, h, assertReset_of_inReset hp]

/-- Settles O2: the assertion is settled by `fetch`, so it is the outcome of the step. -/
theorem resetAssertStopsService : Obligations.ResetAssertStopsService := by
  intro s rest h
  rw [step_of_settled (fetch_resetAssert h), assertReset, dropEvent, h, List.tail_cons]

/-- Settles O1: `fetch` drops the request and performs the release; what remains is that the registers hold the centre uncut. -/
theorem resetReleaseGivesResetValues : Obligations.ResetReleaseGivesResetValues := by
  refine fun s rest hp => ⟨fun w h => ?request, fun cfg hw h => ?release⟩
  case request =>
    exact ⟨dropEvent s, step_of_settled (fetch_request_inReset hp h), rfl, dropEvent_history s⟩
  case release =>
    have hstep : step s = .next (releaseReset s cfg) := by
      rw [step_of_settled (fetch_resetRelease_inReset hp h), if_pos hw]
    have hcentre (ch : Channel) : (releaseReset s cfg).cur[ch].toNat = cfg.centerUs ∧
        (releaseReset s cfg).tgt[ch].toNat = cfg.centerUs :=
      ⟨resetWith_cur_toNat hw ch, resetWith_cur_toNat hw ch⟩
    have hport : (releaseReset s cfg).port = rest := by rw [releaseReset_port, h, List.tail_cons]
    exact ⟨releaseReset s cfg, hstep, rfl, hcentre, rfl, rfl, rfl, rfl, rfl, hport, rfl⟩

end Sys2Proof.Machine
